-- ==== Sys2Proof/Word.lean ====
section
/-! DEFINITION. The plain word types of the node block (spec/00_scope.md rules R8 and R9): a byte is eight bits, a
byte sequence is a list whose head is the first byte on a wire. -/

namespace Sys2Proof

/-- `u8` of rule R8. -/
abbrev Byte := BitVec 8

/-- `bytes` of rule R9: a finite sequence; the leftmost element is the first byte sent and the first received. -/
abbrev Bytes := List (BitVec 8)

end Sys2Proof
end

