-- ==== Sys2Proof/Config.lean ====
section
/-! DEFINITION. The implementation parameters of spec/00_scope.md rule R6, their constraints (rule R7 and
spec/43_bus_router.md rule R201), the constants the document fixes, and the model's free values. -/

namespace Sys2Proof

/-- How envelope bytes cross the transport (rule R160). -/
inductive LinkMode where
  | raw
  | stuffed
  deriving DecidableEq, Repr

/-- Wire order of the two checksum bytes (rule R86). -/
inductive CksumOrder where
  | loFirst
  | hiFirst
  deriving DecidableEq, Repr

/-- The four channels of a device, in the order of their offsets (rules R88 and R200). -/
inductive Channel where
  | comm
  | control
  | status
  | misc
  deriving DecidableEq, Repr

/-- The answer of the bus `send` (rules R206 and R283): `ok`, or an error the block does not look into. The document
gives `BusError` no variants, so an error is named by a number that nothing in the block reads. -/
inductive BusAnswer where
  | ok
  | busError (e : Nat)
  deriving DecidableEq, Repr, Inhabited

/-- The parameters of rule R6 that the document leaves open. `NUM_CMDS` is the length of `minParams` and `NUM_DEVICES`
the length of `baseIds`: each is stored once. The thresholds are `Nat` because rule R224 says they are non-negative. -/
structure Config where
  debounceUs : Nat
  singleClickUs : Nat
  longClickUs : Nat
  checksumStrict : Bool
  linkMode : LinkMode
  linkDelim : Byte
  cksumOrder : CksumOrder
  tIdentify : Byte
  tStatus : Byte
  tCommand : Byte
  tPing : Byte
  tResponse : Byte
  eSuccess : Byte
  eInvalidPacketType : Byte
  eInvalidFunction : Byte
  eInsufficientParams : Byte
  eInvalidDevice : Byte
  eUnknown : Byte
  minParams : List Nat
  identVersion : Bytes
  identName : Bytes
  statusSize : Nat
  baseIds : List (BitVec 32)
  busMaxPayload : Nat
  numButtons : Nat
  numLights : Nat
  maxBuf : Nat
  releasedOnOtherUp : Bool
  deriving DecidableEq, Repr

/-- `NUM_CMDS`, the number of real handlers (rule R6). -/
def Config.numCmds (c : Config) : Nat := c.minParams.length

/-- `NUM_DEVICES`, the number of entries of the device table (rule R6). -/
def Config.numDevices (c : Config) : Nat := c.baseIds.length

/-- The five packet type codes (rule R90). -/
def Config.typeCodes (c : Config) : List Byte := [c.tIdentify, c.tStatus, c.tCommand, c.tPing, c.tResponse]

/-- The six error codes (rule R91). -/
def Config.errorCodes (c : Config) : List Byte :=
  [c.eSuccess, c.eInvalidPacketType, c.eInvalidFunction, c.eInsufficientParams, c.eInvalidDevice, c.eUnknown]

/-- The id ranges of two devices do not overlap: their base ids differ by at least 4 (rule R201). -/
abbrev basesApart (a b : BitVec 32) : Prop := a.toNat + 4 ≤ b.toNat ∨ b.toNat + 4 ≤ a.toNat

/-- The constraints a configuration must satisfy (rules R7 and R201, and the ranges of rule R6: log entry 20). A
configuration that breaks one "is not a configuration of this hardware". -/
abbrev Config.ok (c : Config) : Prop :=
  c.typeCodes.Nodup ∧
  c.errorCodes.Nodup ∧
  1 + c.identVersion.length + 1 + c.identName.length ≤ 253 ∧
  1 + c.statusSize ≤ 253 ∧
  c.numCmds ≤ 255 ∧
  (∀ m ∈ c.minParams, m ≤ 252) ∧
  (c.linkMode = .stuffed → c.linkDelim = 0) ∧
  (∀ b ∈ c.baseIds.map BitVec.toNat, b ≤ 0xFFFFFFFC) ∧
  c.baseIds.Pairwise basesApart

/-- The configuration after reset: the defaults of rule R6, with the command and device tables and the instance counts
that spec/95_test_vectors.md uses where R6 gives none (log entry 2, DESIGN CHOICE). -/
def Config.default : Config where
  debounceUs := 50000
  singleClickUs := 350000
  longClickUs := 500000
  checksumStrict := false
  linkMode := .raw
  linkDelim := 0x00
  cksumOrder := .loFirst
  tIdentify := 0
  tStatus := 1
  tCommand := 2
  tPing := 3
  tResponse := 4
  eSuccess := 0
  eInvalidPacketType := 1
  eInvalidFunction := 2
  eInsufficientParams := 3
  eInvalidDevice := 4
  eUnknown := 5
  minParams := [0, 2, 3]
  identVersion := [0x01, 0x00]
  identName := [0x6E, 0x6F, 0x64, 0x65]
  statusSize := 4
  baseIds := [0x100, 0x200]
  busMaxPayload := 8
  numButtons := 1
  numLights := 1
  maxBuf := 512
  releasedOnOtherUp := true

/-- `START`, the envelope start marker (rule R6, fixed by the document). -/
def startByte : Byte := 0x4E

/-- `MAX_RUN`, the most data bytes of one stuffing run (rule R6, fixed). -/
def maxRun : Nat := 254

/-- `MAX_LEN`, the largest legal value of the envelope `len` field (rule R6, fixed). -/
def maxLen : Nat := 253

/-- `STATUS_MSG_LEN` (rule R89, decision D22). -/
def statusMsgLen : Nat := 5

/-- FREE VALUE: a byte a callback answers (rules R174 and R178: the answer is a draw), applied to the number of the
draw; used when the environment has placed no answer in `State.cbAnswers` (log entry 5). -/
opaque Config.freeByte : Nat → Byte

/-- FREE VALUE: the bus's answer to a send (rule R206: a draw), applied to the number of the draw; used when the
environment has placed no answer in `State.busAnswers` (log entry 5). -/
opaque Config.freeBusAnswer : Nat → BusAnswer

end Sys2Proof
end

