-- ==== Sys2Proof/Syntax.lean ====
section
/-! DEFINITION. The operations of the node block as syntax: one constructor per row of spec/opcode_table.json. The first
forty are the operations of spec/30_encoding.md rule R96, with the operands that rule gives them. The other twenty rows
are the codes of the block's wire formats; each stands for the arrival, or the answering, of the wire item that carries
the code (log entry 3). Indices and counts are `Nat`; what a word carries of them is a matter of `WellFormed`. -/

namespace Sys2Proof

/-- The formats of spec/opcode_table.json, which say how the first bytes of an offered word are read. -/
inductive Format where
  | opsel       -- an operation-select byte (rule R96)
  | envelope    -- a packet envelope (rule R82); the row is named by its `type` byte
  | errorCode   -- payload byte 0 of a response (rule R84)
  | channel     -- a bus message on a device's channel (rule R88); the row is named by the offset
  | stuffCode   -- the code byte of a stuffing run (rules R81 and R87)
  | start       -- the start marker of an envelope (rule R82)
  deriving DecidableEq, Repr

/-- One operation as the environment offers it at a port: its format and its bytes, first byte first. -/
structure Offer where
  fmt : Format
  bytes : Bytes
  deriving DecidableEq, Repr

/-- The rows of spec/opcode_table.json. -/
inductive Instr where
  -- unit 0, CODEC
  | enc (input : Bytes) (d : Byte)
  | dec (input : Bytes) (d : Byte)
  | maxenc (n : Nat)
  | stuffBegin (d : Byte)
  | stuffByte (b : Byte)
  | stuffEnd
  | unstuffBegin (d : Byte)
  | unstuffByte (b : Byte)
  | unstuffEnd
  -- unit 1, CKSUM
  | cksum (input : Bytes)
  | checkbytes (input : Bytes)
  | verify (input : Bytes)
  | ckReset
  | ckByte (b : Byte)
  | ckRead
  | ckCheckbytes
  -- unit 2, PKT
  | rxByte (b : Byte)
  | rxFrameEnd
  | pktDispatch
  | txSerialize (pid ty : Byte) (payload : Bytes)
  | pktCkstat
  | linkRxbyte (b : Byte)
  -- unit 3, BUS
  | busRecv (id : BitVec 32) (payload : Bytes)
  | busSendControl (k : Nat) (value : Byte)
  | devGet (k : Nat)
  | busChanid (k ch : Nat)
  -- unit 4, BTN
  | btnTick (n : Nat) (pressed : Bool) (now : BitVec 64)
  | btnIsClick (n : Nat)
  | btnIsSingleClick (n : Nat)
  | btnIsDoubleClick (n : Nat)
  | btnIsLongClick (n : Nat)
  | btnIsReleased (n : Nat)
  | btnState (n : Nat)
  -- unit 5, LIGHT
  | lightUpdate (j : Nat) (now : BitVec 64)
  | lightSet (j : Nat) (v : Bool)
  | lightToggle (j : Nat)
  | lightBlink (j : Nat) (period : BitVec 64)
  | lightBlinkToggle (j : Nat) (period : BitVec 64)
  | lightBlinkCount (j : Nat) (period : BitVec 64) (count : BitVec 32)
  | lightOut (j : Nat)
  -- a whole packet envelope of the named type crosses the link (rules R82 and R90)
  | pktIdentify (pid : Byte) (payload : Bytes) (ck0 ck1 : Byte)
  | pktStatus (pid : Byte) (payload : Bytes) (ck0 ck1 : Byte)
  | pktCommand (pid : Byte) (payload : Bytes) (ck0 ck1 : Byte)
  | pktPing (pid : Byte) (payload : Bytes) (ck0 ck1 : Byte)
  | pktResponse (pid : Byte) (payload : Bytes) (ck0 ck1 : Byte)
  | pktUnknown (ty pid : Byte) (payload : Bytes) (ck0 ck1 : Byte)
  -- the held packet is answered with the named error code (rules R84 and R91)
  | eSuccess
  | eInvalidPacketType
  | eInvalidFunction
  | eInsufficientParams
  | eInvalidDevice
  | eUnknown
  -- a bus message arrives on the named channel of device `k` (rules R88 and R203)
  | chComm (k : Nat) (payload : Bytes)
  | chControl (k : Nat) (payload : Bytes)
  | chStatus (k : Nat) (payload : Bytes)
  | chMisc (k : Nat) (payload : Bytes)
  -- the named code byte arrives at the `HOST` unstuffer (rule R87)
  | codeStop
  | codeFullrun
  | codeRun (c : Byte)
  -- the start marker arrives at the reader (rule R164)
  | start
  deriving DecidableEq, Repr

end Sys2Proof
end

