-- ==== Sys2Proof/WellFormed.lean ====
section
/-! DEFINITION. Which terms of `Instr` an offered word can carry. The bounds of the operation rows are those of the
model's operand layout (log entry 4); the others are the spec's: the envelope's one-byte `len` (rule R82), the rows
that exclude the codes of other rows (opcode table, PKT.UNKNOWN and CODE.RUN), and the device table (rule R203). A
well-formed operation may still be refused when it is invoked (rule R98). -/

namespace Sys2Proof

/-- A byte sequence that a four-byte length can count. -/
abbrev seqFits (bs : Bytes) : Bool := decide (bs.length < 2 ^ 32)

/-- An index that four bytes can carry. -/
abbrev indexFits (k : Nat) : Bool := decide (k < 2 ^ 32)

/-- A payload that the one-byte `len` field can count (rule R82). -/
abbrev payloadFits (bs : Bytes) : Bool := decide (bs.length ≤ 255)

/-- The instruction is one that a word of its format carries, under configuration `c`. -/
def WellFormed (c : Config) : Instr → Bool
  | .enc input _ => seqFits input
  | .dec input _ => seqFits input
  | .maxenc n => decide (n < 2 ^ 64)
  | .stuffBegin _ => true
  | .stuffByte _ => true
  | .stuffEnd => true
  | .unstuffBegin _ => true
  | .unstuffByte _ => true
  | .unstuffEnd => true
  | .cksum input => seqFits input
  | .checkbytes input => seqFits input
  | .verify input => seqFits input
  | .ckReset => true
  | .ckByte _ => true
  | .ckRead => true
  | .ckCheckbytes => true
  | .rxByte _ => true
  | .rxFrameEnd => true
  | .pktDispatch => true
  | .txSerialize _ _ payload => seqFits payload
  | .pktCkstat => true
  | .linkRxbyte _ => true
  | .busRecv _ payload => seqFits payload
  | .busSendControl k _ => indexFits k
  | .devGet k => indexFits k
  | .busChanid k ch => indexFits k && decide (ch < 256)
  | .btnTick n _ _ => indexFits n
  | .btnIsClick n => indexFits n
  | .btnIsSingleClick n => indexFits n
  | .btnIsDoubleClick n => indexFits n
  | .btnIsLongClick n => indexFits n
  | .btnIsReleased n => indexFits n
  | .btnState n => indexFits n
  | .lightUpdate j _ => indexFits j
  | .lightSet j _ => indexFits j
  | .lightToggle j => indexFits j
  | .lightBlink j _ => indexFits j
  | .lightBlinkToggle j _ => indexFits j
  | .lightBlinkCount j _ _ => indexFits j
  | .lightOut j => indexFits j
  | .pktIdentify _ payload _ _ => payloadFits payload
  | .pktStatus _ payload _ _ => payloadFits payload
  | .pktCommand _ payload _ _ => payloadFits payload
  | .pktPing _ payload _ _ => payloadFits payload
  | .pktResponse _ payload _ _ => payloadFits payload
  | .pktUnknown ty _ payload _ _ => payloadFits payload && decide (ty ∉ c.typeCodes)
  | .eSuccess => true
  | .eInvalidPacketType => true
  | .eInvalidFunction => true
  | .eInsufficientParams => true
  | .eInvalidDevice => true
  | .eUnknown => true
  | .chComm k payload => seqFits payload && decide (k < c.numDevices)
  | .chControl k payload => seqFits payload && decide (k < c.numDevices)
  | .chStatus k payload => seqFits payload && decide (k < c.numDevices)
  | .chMisc k payload => seqFits payload && decide (k < c.numDevices)
  | .codeStop => true
  | .codeFullrun => true
  | .codeRun b => decide (b ≠ 0x00 ∧ b ≠ 0xFF)
  | .start => true

end Sys2Proof
end

