-- ==== Sys2Proof/Decode.lean ====
section
/-! DEFINITION. From the bytes of an offered word to an instruction, and back. The select codes are those of
spec/30_encoding.md rule R96; the wire formats are those of rules R82, R84, R87 and R88; the layout of an operation's
operands behind its select byte is the model's own (log entry 4). A word that no row matches, or with bytes left over,
decodes to nothing (rule R98). -/

namespace Sys2Proof

/-! ### Fields -/

/-- The `n` bytes of `v`, least significant first. -/
def leBytes : Nat → Nat → Bytes
  | 0, _ => []
  | n + 1, v => BitVec.ofNat 8 v :: leBytes n (v / 256)

/-- Reads `n` bytes, least significant first, and answers the number with the rest. -/
def readLE : Nat → Bytes → Option (Nat × Bytes)
  | 0, bs => some (0, bs)
  | _ + 1, [] => none
  | n + 1, b :: bs =>
    match readLE n bs with
    | none => none
    | some (v, rest) => some (b.toNat + 256 * v, rest)

/-- A byte sequence behind its four-byte length. -/
def seqBytes (bs : Bytes) : Bytes := leBytes 4 bs.length ++ bs

/-- Reads a byte sequence behind its four-byte length. -/
def readSeq (bs : Bytes) : Option (Bytes × Bytes) :=
  match readLE 4 bs with
  | none => none
  | some (n, rest) => if n ≤ rest.length then some (rest.take n, rest.drop n) else none

/-- A boolean is the byte 0 or 1 (rule R100). -/
def boolByte (v : Bool) : Byte := if v then 1 else 0

/-- Reads one byte and goes on with it. -/
def withByte (bs : Bytes) (f : Byte → Bytes → Option (Instr × Bytes)) : Option (Instr × Bytes) :=
  match bs with
  | [] => none
  | b :: rest => f b rest

/-- Reads an `n`-byte number and goes on with it. -/
def withNum (n : Nat) (bs : Bytes) (f : Nat → Bytes → Option (Instr × Bytes)) : Option (Instr × Bytes) :=
  match readLE n bs with
  | none => none
  | some (v, rest) => f v rest

/-- Reads a counted byte sequence and goes on with it. -/
def withSeq (bs : Bytes) (f : Bytes → Bytes → Option (Instr × Bytes)) : Option (Instr × Bytes) :=
  match readSeq bs with
  | none => none
  | some (v, rest) => f v rest

/-- Reads a boolean byte and goes on with it; a byte other than 0 and 1 is no boolean. -/
def withBool (bs : Bytes) (f : Bool → Bytes → Option (Instr × Bytes)) : Option (Instr × Bytes) :=
  match bs with
  | [] => none
  | b :: rest => if b = 0 then f false rest else if b = 1 then f true rest else none

/-! ### The codes -/

/-- What a packet's type byte asks for (rule R90): `T_RESPONSE` is not a request, but it is a row of its own. -/
inductive PacketKind where
  | identify
  | status
  | command
  | ping
  | response
  | unknown
  deriving DecidableEq, Repr

/-- The packet type a type byte stands for (rule R90; opcode table, the specific rows first). -/
def packetKind (c : Config) (ty : Byte) : PacketKind :=
  if ty = c.tIdentify then .identify
  else if ty = c.tStatus then .status
  else if ty = c.tCommand then .command
  else if ty = c.tPing then .ping
  else if ty = c.tResponse then .response
  else .unknown

/-- The offset of a channel from its device's base id (rule R88). -/
def channelOffset : Channel → Nat
  | .comm => 0
  | .control => 1
  | .status => 2
  | .misc => 3

/-- The channel at an offset, for offsets 0 to 3 (rule R200). -/
def channelAt : Nat → Option Channel
  | 0 => some .comm
  | 1 => some .control
  | 2 => some .status
  | 3 => some .misc
  | _ => none

/-- The id of a channel of a device with the given base id: the 32-bit sum of rule R88. -/
def channelId (base : BitVec 32) (ch : Channel) : BitVec 32 := base + BitVec.ofNat 32 (channelOffset ch)

/-- `match(id)` of rule R203 over the part of the device table that starts at index `k`. -/
def matchFrom (id : BitVec 32) : List (BitVec 32) → Nat → Option (Nat × Channel)
  | [], _ => none
  | base :: rest, k =>
    if base.toNat ≤ id.toNat ∧ id.toNat ≤ base.toNat + 3 then
      (channelAt (id.toNat - base.toNat)).map fun ch => (k, ch)
    else matchFrom id rest (k + 1)

/-- `match(id)` of rule R203: the device and channel an id belongs to, or `none` for `unmatched`. -/
def matchId (c : Config) (id : BitVec 32) : Option (Nat × Channel) := matchFrom id c.baseIds 0

/-! ### Decoding -/

/-- The operations by their select byte (rule R96), each with its operands in the order the rule lists them. -/
def decodeOp (op : Nat) (bs : Bytes) : Option (Instr × Bytes) :=
  match op with
  | 0x00 => withSeq bs fun input r => withByte r fun d r => some (.enc input d, r)
  | 0x01 => withSeq bs fun input r => withByte r fun d r => some (.dec input d, r)
  | 0x02 => withNum 8 bs fun n r => some (.maxenc n, r)
  | 0x03 => withByte bs fun d r => some (.stuffBegin d, r)
  | 0x04 => withByte bs fun b r => some (.stuffByte b, r)
  | 0x05 => some (.stuffEnd, bs)
  | 0x06 => withByte bs fun d r => some (.unstuffBegin d, r)
  | 0x07 => withByte bs fun b r => some (.unstuffByte b, r)
  | 0x08 => some (.unstuffEnd, bs)
  | 0x20 => withSeq bs fun input r => some (.cksum input, r)
  | 0x21 => withSeq bs fun input r => some (.checkbytes input, r)
  | 0x22 => withSeq bs fun input r => some (.verify input, r)
  | 0x23 => some (.ckReset, bs)
  | 0x24 => withByte bs fun b r => some (.ckByte b, r)
  | 0x25 => some (.ckRead, bs)
  | 0x26 => some (.ckCheckbytes, bs)
  | 0x40 => withByte bs fun b r => some (.rxByte b, r)
  | 0x41 => some (.rxFrameEnd, bs)
  | 0x42 => some (.pktDispatch, bs)
  | 0x43 => withByte bs fun pid r => withByte r fun ty r => withSeq r fun p r => some (.txSerialize pid ty p, r)
  | 0x44 => some (.pktCkstat, bs)
  | 0x45 => withByte bs fun b r => some (.linkRxbyte b, r)
  | 0x60 => withNum 4 bs fun id r => withSeq r fun p r => some (.busRecv (BitVec.ofNat 32 id) p, r)
  | 0x61 => withNum 4 bs fun k r => withByte r fun v r => some (.busSendControl k v, r)
  | 0x62 => withNum 4 bs fun k r => some (.devGet k, r)
  | 0x63 => withNum 4 bs fun k r => withNum 1 r fun ch r => some (.busChanid k ch, r)
  | 0x80 => withNum 4 bs fun n r => withBool r fun p r => withNum 8 r fun t r =>
      some (.btnTick n p (BitVec.ofNat 64 t), r)
  | 0x81 => withNum 4 bs fun n r => some (.btnIsClick n, r)
  | 0x82 => withNum 4 bs fun n r => some (.btnIsSingleClick n, r)
  | 0x83 => withNum 4 bs fun n r => some (.btnIsDoubleClick n, r)
  | 0x84 => withNum 4 bs fun n r => some (.btnIsLongClick n, r)
  | 0x85 => withNum 4 bs fun n r => some (.btnIsReleased n, r)
  | 0x86 => withNum 4 bs fun n r => some (.btnState n, r)
  | 0xA0 => withNum 4 bs fun j r => withNum 8 r fun t r => some (.lightUpdate j (BitVec.ofNat 64 t), r)
  | 0xA1 => withNum 4 bs fun j r => withBool r fun v r => some (.lightSet j v, r)
  | 0xA2 => withNum 4 bs fun j r => some (.lightToggle j, r)
  | 0xA3 => withNum 4 bs fun j r => withNum 8 r fun p r => some (.lightBlink j (BitVec.ofNat 64 p), r)
  | 0xA4 => withNum 4 bs fun j r => withNum 8 r fun p r => some (.lightBlinkToggle j (BitVec.ofNat 64 p), r)
  | 0xA5 => withNum 4 bs fun j r => withNum 8 r fun p r => withNum 4 r fun n r =>
      some (.lightBlinkCount j (BitVec.ofNat 64 p) (BitVec.ofNat 32 n), r)
  | 0xA6 => withNum 4 bs fun j r => some (.lightOut j, r)
  | _ => none

/-- The instruction of a packet envelope (rule R82), named by its type byte. -/
def envelopeInstr (c : Config) (ty pid : Byte) (payload : Bytes) (ck0 ck1 : Byte) : Instr :=
  match packetKind c ty with
  | .identify => .pktIdentify pid payload ck0 ck1
  | .status => .pktStatus pid payload ck0 ck1
  | .command => .pktCommand pid payload ck0 ck1
  | .ping => .pktPing pid payload ck0 ck1
  | .response => .pktResponse pid payload ck0 ck1
  | .unknown => .pktUnknown ty pid payload ck0 ck1

/-- A packet envelope (rule R82): `START`, `pid`, `type`, `len`, `len` payload bytes, two checksum bytes. -/
def decodeEnvelope (c : Config) : Bytes → Option (Instr × Bytes)
  | st :: pid :: ty :: len :: body =>
    if st = startByte then
      match body.drop len.toNat with
      | ck0 :: ck1 :: rest => some (envelopeInstr c ty pid (body.take len.toNat) ck0 ck1, rest)
      | _ => none
    else none
  | _ => none

/-- The row of an error code (rule R91). -/
def decodeError (c : Config) (e : Byte) : Option Instr :=
  if e = c.eSuccess then some .eSuccess
  else if e = c.eInvalidPacketType then some .eInvalidPacketType
  else if e = c.eInvalidFunction then some .eInvalidFunction
  else if e = c.eInsufficientParams then some .eInsufficientParams
  else if e = c.eInvalidDevice then some .eInvalidDevice
  else if e = c.eUnknown then some .eUnknown
  else none

/-- The row of a bus message by its channel (rules R88 and R203); an id of no device has no row. -/
def decodeChannel (c : Config) (id : BitVec 32) (payload : Bytes) : Option Instr :=
  match matchId c id with
  | none => none
  | some (k, .comm) => some (.chComm k payload)
  | some (k, .control) => some (.chControl k payload)
  | some (k, .status) => some (.chStatus k payload)
  | some (k, .misc) => some (.chMisc k payload)

/-- The row of a stuffing code byte (rule R87; opcode table, the two specific rows first). -/
def decodeCode (b : Byte) : Instr :=
  if b = 0x00 then .codeStop else if b = 0xFF then .codeFullrun else .codeRun b

/-- Reads one instruction of the given format from the front of the bytes and answers it with the rest. -/
def decodePrefix (c : Config) : Format → Bytes → Option (Instr × Bytes)
  | .opsel, bs => withByte bs fun op r => decodeOp op.toNat r
  | .envelope, bs => decodeEnvelope c bs
  | .errorCode, bs => withByte bs fun e r => (decodeError c e).map fun i => (i, r)
  | .channel, bs => withNum 4 bs fun id r => withSeq r fun p r =>
      (decodeChannel c (BitVec.ofNat 32 id) p).map fun i => (i, r)
  | .stuffCode, bs => withByte bs fun b r => some (decodeCode b, r)
  | .start, bs => withByte bs fun b r => if b = startByte then some (.start, r) else none

/-- The instruction of an offered word, whose bytes it must use up; `none` is "not an operation" (rule R98). -/
def decode (c : Config) (o : Offer) : Option Instr :=
  match decodePrefix c o.fmt o.bytes with
  | some (i, []) => some i
  | _ => none

/-! ### Encoding -/

/-- The bytes of a packet envelope (rule R82), packed with no padding. -/
def envelopeBytes (pid ty : Byte) (payload : Bytes) (ck0 ck1 : Byte) : Bytes :=
  [startByte, pid, ty, BitVec.ofNat 8 payload.length] ++ payload ++ [ck0, ck1]

/-- The base id of device `k`, or 0 where the table has no such device (rule R38). -/
def baseId (c : Config) (k : Nat) : BitVec 32 := c.baseIds.getD k 0

/-- A bus message on a channel of device `k`: its id, then its payload. -/
def channelBytes (c : Config) (k : Nat) (ch : Channel) (payload : Bytes) : Bytes :=
  leBytes 4 (channelId (baseId c k) ch).toNat ++ seqBytes payload

/-- A word of the operation-select format. -/
abbrev opWord (op : Byte) (operands : Bytes) : Offer := ⟨.opsel, op :: operands⟩

/-- The word of an instruction. -/
def encode (c : Config) : Instr → Offer
  | .enc input d => opWord 0x00 (seqBytes input ++ [d])
  | .dec input d => opWord 0x01 (seqBytes input ++ [d])
  | .maxenc n => opWord 0x02 (leBytes 8 n)
  | .stuffBegin d => opWord 0x03 [d]
  | .stuffByte b => opWord 0x04 [b]
  | .stuffEnd => opWord 0x05 []
  | .unstuffBegin d => opWord 0x06 [d]
  | .unstuffByte b => opWord 0x07 [b]
  | .unstuffEnd => opWord 0x08 []
  | .cksum input => opWord 0x20 (seqBytes input)
  | .checkbytes input => opWord 0x21 (seqBytes input)
  | .verify input => opWord 0x22 (seqBytes input)
  | .ckReset => opWord 0x23 []
  | .ckByte b => opWord 0x24 [b]
  | .ckRead => opWord 0x25 []
  | .ckCheckbytes => opWord 0x26 []
  | .rxByte b => opWord 0x40 [b]
  | .rxFrameEnd => opWord 0x41 []
  | .pktDispatch => opWord 0x42 []
  | .txSerialize pid ty payload => opWord 0x43 (pid :: ty :: seqBytes payload)
  | .pktCkstat => opWord 0x44 []
  | .linkRxbyte b => opWord 0x45 [b]
  | .busRecv id payload => opWord 0x60 (leBytes 4 id.toNat ++ seqBytes payload)
  | .busSendControl k value => opWord 0x61 (leBytes 4 k ++ [value])
  | .devGet k => opWord 0x62 (leBytes 4 k)
  | .busChanid k ch => opWord 0x63 (leBytes 4 k ++ leBytes 1 ch)
  | .btnTick n pressed now => opWord 0x80 (leBytes 4 n ++ boolByte pressed :: leBytes 8 now.toNat)
  | .btnIsClick n => opWord 0x81 (leBytes 4 n)
  | .btnIsSingleClick n => opWord 0x82 (leBytes 4 n)
  | .btnIsDoubleClick n => opWord 0x83 (leBytes 4 n)
  | .btnIsLongClick n => opWord 0x84 (leBytes 4 n)
  | .btnIsReleased n => opWord 0x85 (leBytes 4 n)
  | .btnState n => opWord 0x86 (leBytes 4 n)
  | .lightUpdate j now => opWord 0xA0 (leBytes 4 j ++ leBytes 8 now.toNat)
  | .lightSet j v => opWord 0xA1 (leBytes 4 j ++ [boolByte v])
  | .lightToggle j => opWord 0xA2 (leBytes 4 j)
  | .lightBlink j period => opWord 0xA3 (leBytes 4 j ++ leBytes 8 period.toNat)
  | .lightBlinkToggle j period => opWord 0xA4 (leBytes 4 j ++ leBytes 8 period.toNat)
  | .lightBlinkCount j period count =>
      opWord 0xA5 (leBytes 4 j ++ leBytes 8 period.toNat ++ leBytes 4 count.toNat)
  | .lightOut j => opWord 0xA6 (leBytes 4 j)
  | .pktIdentify pid payload ck0 ck1 => ⟨.envelope, envelopeBytes pid c.tIdentify payload ck0 ck1⟩
  | .pktStatus pid payload ck0 ck1 => ⟨.envelope, envelopeBytes pid c.tStatus payload ck0 ck1⟩
  | .pktCommand pid payload ck0 ck1 => ⟨.envelope, envelopeBytes pid c.tCommand payload ck0 ck1⟩
  | .pktPing pid payload ck0 ck1 => ⟨.envelope, envelopeBytes pid c.tPing payload ck0 ck1⟩
  | .pktResponse pid payload ck0 ck1 => ⟨.envelope, envelopeBytes pid c.tResponse payload ck0 ck1⟩
  | .pktUnknown ty pid payload ck0 ck1 => ⟨.envelope, envelopeBytes pid ty payload ck0 ck1⟩
  | .eSuccess => ⟨.errorCode, [c.eSuccess]⟩
  | .eInvalidPacketType => ⟨.errorCode, [c.eInvalidPacketType]⟩
  | .eInvalidFunction => ⟨.errorCode, [c.eInvalidFunction]⟩
  | .eInsufficientParams => ⟨.errorCode, [c.eInsufficientParams]⟩
  | .eInvalidDevice => ⟨.errorCode, [c.eInvalidDevice]⟩
  | .eUnknown => ⟨.errorCode, [c.eUnknown]⟩
  | .chComm k payload => ⟨.channel, channelBytes c k .comm payload⟩
  | .chControl k payload => ⟨.channel, channelBytes c k .control payload⟩
  | .chStatus k payload => ⟨.channel, channelBytes c k .status payload⟩
  | .chMisc k payload => ⟨.channel, channelBytes c k .misc payload⟩
  | .codeStop => ⟨.stuffCode, [0x00]⟩
  | .codeFullrun => ⟨.stuffCode, [0xFF]⟩
  | .codeRun b => ⟨.stuffCode, [b]⟩
  | .start => ⟨.start, [startByte]⟩

/-! ### The table's words -/

/-- The format in which a word of spec/opcode_table.json is read when nothing says which row it is of: the operation-select
format, but for the two bytes that select no operation and that one wire row fixes (log entry 4). -/
def tableFormat (w : Byte) : Format :=
  if w = startByte then .start else if w = 0xFF then .stuffCode else .opsel

/-- The offered word whose first `nbits` bits are `w`, least significant byte first, with every operand bit above them 0:
just as many zero bytes as the decoder reads. -/
def tableOffer (c : Config) (nbits w : Nat) : Offer :=
  let word := leBytes (nbits / 8) w
  let fmt := tableFormat (word.headD 0)
  let padded := word ++ List.replicate 32 0
  match decodePrefix c fmt padded with
  | some (_, rest) => ⟨fmt, padded.take (padded.length - rest.length)⟩
  | none => ⟨fmt, word⟩

/-- The instruction the decoder reads from a word of spec/opcode_table.json, under the configuration after reset. -/
def decodeTableWord (nbits w : Nat) : Option Instr := decode Config.default (tableOffer Config.default nbits w)

end Sys2Proof
end

