-- ==== Sys2Proof/Machine/State.lean ====
section
/-! DEFINITION. The state of the node block: every element of spec/10_state.md rules R24 to R45, the four output logs
(rule R53), the configuration (constant after reset, spec/00_scope.md rule R6), and the model's own fields: the operations
offered, the environment's pending answers and the value last returned. INVENTORY.md, '## State', lists them all. -/

namespace Sys2Proof.Machine

open Sys2Proof

/-! ### The parts -/

/-- One streaming context of the CODEC: the encoder registers of rule R25 and the decoder registers of rule R27. -/
structure Codec where
  encD : Byte
  encRun : Bytes
  encOpen : Bool
  decD : Byte
  decCode : Byte
  decBlock : Byte
  decStop : Bool
  deriving DecidableEq, Repr

/-- The phase of the envelope reader (rule R32). -/
inductive RxPhase where
  | scan
  | pid
  | type
  | len
  | payload
  | ck0
  | ck1
  | ready
  deriving DecidableEq, Repr

/-- The runtime state of one device: five opaque bytes (rule R37). -/
structure Device where
  controlStatus : Byte
  lineStatus : Byte
  extraLineStatus : Byte
  toggledLineStatus : Byte
  toggledExtraLineStatus : Byte
  deriving DecidableEq, Repr

/-- The ten gesture states (rule R40). -/
inductive GestureState where
  | idle
  | debounce
  | pressed
  | clickUp
  | clickIdle
  | singleClick
  | doubleClickDebounce
  | doubleClick
  | longClick
  | otherUp
  deriving DecidableEq, Repr

/-- One button instance (rule R40). -/
structure Button where
  state : GestureState
  lastTransitionTime : BitVec 64
  fresh : Bool
  deriving DecidableEq, Repr

/-- The four light states (rule R45). -/
inductive LightState where
  | off
  | on
  | blink
  | blinkCount
  deriving DecidableEq, Repr

/-- One light instance (rule R45). -/
structure Light where
  state : LightState
  stateChanged : Bool
  lastTime : BitVec 64
  blinkPeriod : BitVec 64
  blinkTargetCount : BitVec 32
  blinkToggleCount : BitVec 32
  blinkValue : Bool
  out : Bool
  deriving DecidableEq, Repr

/-! ### The logs (rule R53) -/

/-- An entry of the `TX` log: bytes written to the transport, or a flush marker (rules R53 and R73). -/
inductive TxEvent where
  | write (bytes : Bytes)
  | flush
  deriving DecidableEq, Repr

/-- An entry of the `BUSTX` log: a message passed to the bus `send`. -/
structure BusMessage where
  id : BitVec 32
  payload : Bytes
  deriving DecidableEq, Repr

/-- An entry of the `ROUTE` log: a received message with its device and channel, if any, and whether it updated the
device record (rule R205). -/
structure RouteEvent where
  id : BitVec 32
  payload : Bytes
  target : Option (Nat × Channel)
  updated : Bool
  deriving DecidableEq, Repr

/-- An entry of the `CB` log: a callback called, its arguments and the answer taken (rules R174, R178 and R293). -/
inductive CbEvent where
  | getStatus (answer : Bytes)
  | command (idx : Byte) (params : Bytes) (answer : Byte)
  deriving DecidableEq, Repr

/-- What an operation returns to its invoker (rule R12). -/
inductive Ret where
  | none
  | bytes (bs : Bytes)
  | nat (n : Nat)
  | u16 (v : BitVec 16)
  | u32 (v : BitVec 32)
  | pair (a b : Byte)
  | bool (b : Bool)
  | ckstat (cksum : BitVec 16) (ok : Bool) (dropped : BitVec 32) (phase : RxPhase)
  | device (d : Device)
  | gesture (state : GestureState) (fresh : Bool)
  | busAnswer (a : BusAnswer)
  | err (code : Byte)
  deriving DecidableEq, Repr

/-! ### The machine -/

/-- The state of the block and of its boundary. -/
structure State where
  /-- The parameters of rule R6: constant after reset, written by nothing (log entry 1). -/
  cfg : Config
  /-- MODEL's own: the operations the environment offers next, in order (log entry 1). -/
  offers : List Offer
  /-- Codec context `H`, of the `HOST` port (rule R24). -/
  ctxH : Codec
  /-- Codec context `L`, of the link receiver (rules R24 and R162). -/
  ctxL : Codec
  ckSum1 : Byte
  ckSum2 : Byte
  rxPhase : RxPhase
  rxPid : Byte
  rxType : Byte
  rxLen : Byte
  rxPayload : Bytes
  rxCk0 : Byte
  rxCk1 : Byte
  pktCksum : BitVec 16
  pktCksumOk : Bool
  pktDropped : BitVec 32
  /-- `DEV[k]` for `0 <= k < NUM_DEVICES`. -/
  dev : List Device
  /-- `BTN[i]` for `0 <= i < NUM_BUTTONS`. -/
  btn : List Button
  /-- `LIGHT[j]` for `0 <= j < NUM_LIGHTS`. -/
  light : List Light
  tx : List TxEvent
  busTx : List BusMessage
  route : List RouteEvent
  cb : List CbEvent
  /-- MODEL's own: what the last operation returned to its invoker (log entry 1). -/
  ret : Ret
  /-- MODEL's own: bytes the callback agent will answer next (log entry 5). -/
  cbAnswers : Bytes
  /-- MODEL's own: answers the bus will give next (log entry 5). -/
  busAnswers : List BusAnswer
  /-- MODEL's own: how many draws were made; the argument of the free values (log entry 5). -/
  drawCount : Nat
  deriving DecidableEq, Repr

/-- Why the machine stops with a fault: never. "No operation of the block traps, aborts, halts the block" (rule R280), and
spec/93_implementation_defined.md gives no case the treatment `fault`; so there is no reason, and no constructor. -/
inductive Fault where
  deriving DecidableEq, Repr

/-- Why the model gives an invocation no meaning: its operands break a precondition the spec states, or the operation is
not enabled (rules R12 and R98). Every one is safe: the block has no behaviour there that a claim could miss, but for what
the constructor's log entry says. -/
inductive Refusal where
  /-- An instruction without a meaning; raised by no arm of `exec`. Safe. -/
  | notModelled (mnemonic : String)
  /-- Raised by `step`: the configuration breaks rule R7 (case I21) or a range of rule R6 (log entry 20). Safe. -/
  | badConfiguration
  /-- Raised by `step`: the offered word is of no row, as an unassigned `opsel` (rule R98, case I33). Safe. -/
  | notAnOperation
  /-- Raised by ENC, DEC, CKSUM, CHECKBYTES and VERIFY: an operand or ENC's output passes `MAX_BUF` (rule R61, I1). Safe. -/
  | bufferTooLong
  /-- Raised by RX.BYTE, START, RX.FRAME_END and LINK.RXBYTE in the link mode that has not got them (I19). Safe. -/
  | wrongLinkMode
  /-- Raised by a transport operation (I18), TX.SERIALIZE and PKT.CKSTAT (rule R32, log entry 23) while `rx_phase = Ready`,
  and by PKT.DISPATCH and the response codes in every other phase (rule R170): the operation is not enabled. Safe. -/
  | notEnabled
  /-- Raised by a response code that is not the one the dispatcher answers the held packet with (log entry 3). Safe. -/
  | otherAnswer
  /-- Raised by TX.SERIALIZE over 253 payload bytes (rule R183, I20) and by an envelope over 255 (rule R82). Safe. -/
  | payloadTooLong
  /-- Raised by BUS.RECV and the channel rows: the payload passes `BUS_MAX_PAYLOAD` (rule R202, I24). Safe. -/
  | busPayloadTooLong
  /-- Raised by BUS.CHANID with `ch > 3` (rule R209, I26). Safe. -/
  | noSuchChannel
  /-- Raised by the channel rows: no device `k`, so no message on its channels (rule R203). Safe. -/
  | noSuchDevice
  /-- Raised by the BTN operations: instance out of range (rule R220, I29). Safe. -/
  | noSuchButton
  /-- Raised by the LIGHT operations: instance out of range (rule R250, I29). Safe. -/
  | noSuchLight
  /-- Raised by LIGHT.BLINK, LIGHT.BLINK_TOGGLE and LIGHT.BLINK_COUNT: a negative period (rule R260, I31). Safe. -/
  | negativePeriod
  deriving DecidableEq, Repr

/-- The outcome of an operation. -/
abbrev Result := Host.Outcome State Fault Refusal

/-! ### Reset (rules R300 and R301; every value is the spec's own decision) -/

/-- A codec context after reset: as `STUFF.BEGIN 0x00` and `UNSTUFF.BEGIN d` leave it (rules R25, R27 and R162). -/
def Codec.reset (d : Byte) : Codec where
  encD := 0x00
  encRun := []
  encOpen := true
  decD := d
  decCode := 0xFF
  decBlock := 0
  decStop := false

/-- A device record after reset (rule R37). -/
def Device.reset : Device := ⟨0, 0, 0, 0, 0⟩

/-- A button after reset (rule R40). -/
def Button.reset : Button := ⟨.idle, 0, false⟩

/-- A light after reset (rule R45). -/
def Light.reset : Light := ⟨.off, false, 0, 0, 0, 0, false, false⟩

/-- The block right after reset under configuration `c` (rule R301). -/
def State.resetWith (c : Config) : State where
  cfg := c
  offers := []
  ctxH := Codec.reset 0x00
  ctxL := Codec.reset c.linkDelim
  ckSum1 := 0
  ckSum2 := 0
  rxPhase := .scan
  rxPid := 0
  rxType := 0
  rxLen := 0
  rxPayload := []
  rxCk0 := 0
  rxCk1 := 0
  pktCksum := 0x0000
  pktCksumOk := true
  pktDropped := 0
  dev := List.replicate c.numDevices Device.reset
  btn := List.replicate c.numButtons Button.reset
  light := List.replicate c.numLights Light.reset
  tx := []
  busTx := []
  route := []
  cb := []
  ret := .none
  cbAnswers := []
  busAnswers := []
  drawCount := 0

/-- The machine right after reset, with the configuration of log entry 2. -/
def State.reset : State := State.resetWith Config.default

end Sys2Proof.Machine
end

