-- ==== Sys2Proof/Machine/Fletcher.lean ====
section
/-! DEFINITION. The functions of the CKSUM unit (spec/41_checksum.md): the Fletcher-16 sum and the check bytes. -/

namespace Sys2Proof.Machine

open Sys2Proof

/-- The new `sum1` after byte `b`: `(sum1 + b) mod 255` (rules R141 and R151). -/
def sum1Step (sum1 b : Byte) : Byte := BitVec.ofNat 8 ((sum1.toNat + b.toNat) % 255)

/-- The new `sum2`, from the new `sum1`: `(sum2 + sum1) mod 255` (rules R141 and R151). -/
def sum2Step (sum2 sum1 : Byte) : Byte := BitVec.ofNat 8 ((sum2.toNat + sum1.toNat) % 255)

/-- Both accumulators after the bytes of `bs`, from `(sum1, sum2)` (rule R141). -/
def sums (bs : Bytes) (start : Byte × Byte) : Byte × Byte :=
  bs.foldl (fun acc b => (sum1Step acc.1 b, sum2Step acc.2 (sum1Step acc.1 b))) start

/-- The 16-bit value `(sum2 << 8) | sum1` (rules R62 and R141). -/
def cksumWord (sum1 sum2 : Byte) : BitVec 16 := sum2 ++ sum1

/-- `fletcher16`, the value `CKSUM in` returns (rule R141). -/
def fletcher16 (bs : Bytes) : BitVec 16 := cksumWord (sums bs (0, 0)).1 (sums bs (0, 0)).2

/-- `ck[7:0]`, the accumulator `sum1` (rule R86). -/
def cksumLo (ck : BitVec 16) : Byte := ck.extractLsb' 0 8

/-- `ck[15:8]`, the accumulator `sum2` (rule R86). -/
def cksumHi (ck : BitVec 16) : Byte := ck.extractLsb' 8 8

/-- The first check byte, `255 - ((f0 + f1) mod 255)` (rule R144). -/
def checkByteA (f0 f1 : Byte) : Byte := BitVec.ofNat 8 (255 - (f0.toNat + f1.toNat) % 255)

/-- The second check byte, `255 - ((f0 + a) mod 255)` (rule R144). -/
def checkByteB (f0 a : Byte) : Byte := BitVec.ofNat 8 (255 - (f0.toNat + a.toNat) % 255)

end Sys2Proof.Machine
end

