-- ==== Sys2Proof/Machine/Operands.lean ====
section
/-! DEFINITION. The forms of operands: a timestamp's elapsed time, the checks on buffers, instances, periods and link
modes that an operation makes before it has its effect (spec/30_encoding.md rule R98). -/

namespace Sys2Proof.Machine

open Sys2Proof

/-- The elapsed time `now - last`: "a signed 64-bit subtraction" (rules R224 and R265) of two `i64`, two's complement (rule
R8), read as a signed number. Outside the premise of rule R302 (`timestampPremise`) it is still total and defined (case I30, decision D28); that it
then wraps is log entry 6. -/
def elapsed (now last : BitVec 64) : Int := (now - last).toInt

/-- An operation on button `n`, refused where there is none (rule R220). -/
def withButton (n : Nat) (s : State) (f : Button → Result) : Result :=
  match s.btn[n]? with
  | none => .refused .noSuchButton
  | some b => f b

/-- An operation on light `j`, refused where there is none (rule R250). -/
def withLight (j : Nat) (s : State) (f : Light → Result) : Result :=
  match s.light[j]? with
  | none => .refused .noSuchLight
  | some l => f l

/-- An operation with a blink period, refused where the period is negative (rule R260). -/
def withPeriod (period : BitVec 64) (r : Result) : Result :=
  if period.toInt < 0 then .refused .negativePeriod else r

/-- An operation on a buffer of `n` bytes, refused over `limit` (rule R61). -/
def withBuffer (n limit : Nat) (r : Result) : Result :=
  if limit < n then .refused .bufferTooLong else r

/-- An operation of one link mode, refused in the other (rules R161, R166 and R167). -/
def inLinkMode (m : LinkMode) (s : State) (r : Result) : Result :=
  if s.cfg.linkMode = m then r else .refused .wrongLinkMode

/-- An operation of PKT other than the dispatch: not enabled while a packet is held (rules R32, R101 and R170). -/
def whileReading (s : State) (r : Result) : Result :=
  if s.rxPhase = .ready then .refused .notEnabled else r

/-- An operation of the dispatcher: enabled only while a packet is held (rule R170). -/
def whileReady (s : State) (r : Result) : Result :=
  if s.rxPhase = .ready then r else .refused .notEnabled

end Sys2Proof.Machine
end

