-- ==== Sys2Proof/Machine/Flags.lean ====
section
/-! DEFINITION. The block's one-bit flags (spec/10_state.md rule R50) where an operation computes one: the checksum verdict,
a button's `fresh` and the predicates on it, a light's `state_changed`. The codec's `enc_open` and `dec_stop` are computed
where rules R123 and R127 set them (Stuffing.lean). -/

namespace Sys2Proof.Machine

open Sys2Proof

/-- The received checksum value, assembled from its two wire bytes in the configured order (rule R86). -/
def assembleCksum (o : CksumOrder) (b0 b1 : Byte) : BitVec 16 :=
  match o with
  | .loFirst => b1 ++ b0
  | .hiFirst => b0 ++ b1

/-- The two wire bytes of a checksum value, in the configured order (rule R86). -/
def wireCksum (o : CksumOrder) (ck : BitVec 16) : Bytes :=
  match o with
  | .loFirst => [cksumLo ck, cksumHi ck]
  | .hiFirst => [cksumHi ck, cksumLo ck]

/-- `pkt_cksum_ok`: the received value is that of the type byte, the length byte and the payload (rule R169). -/
def cksumVerdict (received : BitVec 16) (ty len : Byte) (payload : Bytes) : Bool :=
  decide (received = fletcher16 (ty :: len :: payload))

/-- `fresh` after a tick: set exactly when the tick made a transition (rule R223). -/
def freshAfter (next : Option GestureState) : Bool := next.isSome

/-- `is_click`: on entry to `Pressed` or `DoubleClick` (rule R227). -/
def Button.isClick (b : Button) : Bool := b.fresh && (decide (b.state = .pressed) || decide (b.state = .doubleClick))

/-- `is_single_click` (rule R228). -/
def Button.isSingleClick (b : Button) : Bool := b.fresh && decide (b.state = .singleClick)

/-- `is_double_click` (rule R229). -/
def Button.isDoubleClick (b : Button) : Bool := b.fresh && decide (b.state = .doubleClick)

/-- `is_long_click` (rule R230). -/
def Button.isLongClick (b : Button) : Bool := b.fresh && decide (b.state = .longClick)

/-- `is_released`: on entry to `ClickUp`, and to `OtherUp` where the configuration says so (rule R231). -/
def Button.isReleased (c : Config) (b : Button) : Bool :=
  b.fresh && (decide (b.state = .clickUp) || (c.releasedOnOtherUp && decide (b.state = .otherUp)))

/-- A mutator's write of the light's state, which always sets `state_changed` (rule R257). -/
def Light.intend (l : Light) (st : LightState) : Light := { l with state := st, stateChanged := true }

end Sys2Proof.Machine
end

