-- ==== Sys2Proof/Machine/Stuffing.lean ====
section
/-! DEFINITION. The functions of the CODEC unit (spec/40_framing_codec.md): the buffer algorithms as that file writes them,
and the byte-serial framer and unstuffer over one context. -/

namespace Sys2Proof.Machine

open Sys2Proof

/-- The byte `n + 1` that stands before a run of `n` data bytes (rule R87). -/
def codeByte (n : Nat) : Byte := BitVec.ofNat 8 (n + 1)

/-- The loop of rule R112 over the input still to come, with `out`, `codep` and `code` as there. -/
def encLoop (d : Byte) : Bytes → Bytes → Nat → Nat → Bytes
  | [], out, codep, code => if codep < out.length then out.set codep (BitVec.ofNat 8 code) else out
  | b :: rest, out, codep, code =>
    let out1 := if b ≠ d then out ++ [b] else out
    let code1 := if b ≠ d then code + 1 else code
    if b = d ∨ code1 = 0xFF then
      let out2 := out1.set codep (BitVec.ofNat 8 code1)
      let out3 := if b = d ∨ rest ≠ [] then out2 ++ [0x00] else out2
      encLoop d rest out3 out2.length 1
    else encLoop d rest out1 codep code1

/-- `ENC in, d` (rule R112). -/
def enc (input : Bytes) (d : Byte) : Bytes := encLoop d input [0x00] 0 1

/-- `MAXENC n` (rule R115). -/
def maxenc (n : Nat) : Nat := n + (n + 253) / 254

/-- The loop of rule R116 over the input still to come, with `code` and `block` as there; it answers the output from
here on. -/
def decLoop (d : Byte) : Bytes → Byte → Nat → Bytes
  | [], _, _ => []
  | b :: rest, code, block =>
    if block ≠ 0 then b :: decLoop d rest code (block - 1)
    else
      let inserted : Bytes := if b ≠ 0 ∧ code ≠ 0xFF then [d] else []
      if b = 0 then inserted
      else inserted ++ decLoop d rest b (b.toNat - 1)

/-- `DEC in, d` (rule R116). -/
def dec (input : Bytes) (d : Byte) : Bytes := decLoop d input 0xFF 0

/-- `STUFF.BEGIN d` on a context (rule R122). -/
def Codec.stuffBegin (c : Codec) (d : Byte) : Codec := { c with encD := d, encRun := [], encOpen := true }

/-- `STUFF.BYTE b` on a context: the bytes released and the context after (rule R123). -/
def Codec.stuffByte (c : Codec) (b : Byte) : Bytes × Codec :=
  if b = c.encD then (codeByte c.encRun.length :: c.encRun, { c with encRun := [], encOpen := true })
  else
    let run := c.encRun ++ [b]
    if run.length = maxRun then (0xFF :: run, { c with encRun := [], encOpen := false })
    else ([], { c with encRun := run, encOpen := true })

/-- `STUFF.END` on a context: the bytes released and the context after (rule R124). -/
def Codec.stuffEnd (c : Codec) : Bytes × Codec :=
  (if c.encOpen then codeByte c.encRun.length :: c.encRun else [], { c with encRun := [], encOpen := true })

/-- `UNSTUFF.BEGIN d` on a context (rule R126). -/
def Codec.unstuffBegin (c : Codec) (d : Byte) : Codec :=
  { c with decD := d, decCode := 0xFF, decBlock := 0, decStop := false }

/-- `UNSTUFF.BYTE b` on a context: the bytes released and the context after (rule R127). -/
def Codec.unstuffByte (c : Codec) (b : Byte) : Bytes × Codec :=
  if c.decStop then ([], c)
  else if c.decBlock ≠ 0 then ([b], { c with decBlock := c.decBlock - 1 })
  else if b = 0 then ([], { c with decCode := 0, decStop := true })
  else (if c.decCode ≠ 0xFF then [c.decD] else [], { c with decCode := b, decBlock := b - 1 })

/-- `UNSTUFF.END` on a context: whether the stream ended on a run boundary, and the context after (rule R128). -/
def Codec.unstuffEnd (c : Codec) : Bool × Codec :=
  (decide (c.decBlock = 0) && !c.decStop, { c with decCode := 0xFF, decBlock := 0, decStop := false })

end Sys2Proof.Machine
end

