-- ==== Sys2Proof/Machine/Ops.lean ====
section
/-! DEFINITION. The named operations over the state: returning a value, writing an instance, drawing an answer of the
environment, the serializer and the response (spec/42_packet_envelope.md rule R182), the error return, the envelope
reader and the link receiver (rules R161 to R167). The block has no exception: what spec/60_exceptions.md rule R286 gives in
its place is the error response (`respond` with a one-byte payload) and the error return (`returnErr`). -/

namespace Sys2Proof.Machine

open Sys2Proof

/-! ### Results -/

/-- The operation completes and returns `r` to its invoker (rule R12). -/
def State.returns (s : State) (r : Ret) : Result := .next { s with ret := r }

/-- The operation returns the error kind as a value, and has no other effect (rules R12 and R286). -/
def State.returnErr (s : State) (code : Byte) : Result := s.returns (.err code)

/-! ### Instances -/

/-- Writes button `n`. -/
def State.setButton (s : State) (n : Nat) (b : Button) : State := { s with btn := s.btn.set n b }

/-- Writes light `j`. -/
def State.setLight (s : State) (j : Nat) (l : Light) : State := { s with light := s.light.set j l }

/-- Writes device record `k`, all five bytes as one unit (rule R66). -/
def State.setDevice (s : State) (k : Nat) (d : Device) : State := { s with dev := s.dev.set k d }

/-! ### Draws (rule R12: a value the environment supplies under no law) -/

/-- The next `n` bytes a callback answers: those the environment has placed, then free ones (log entry 5). -/
def State.answerBytes (s : State) (n : Nat) : Bytes :=
  (List.range n).map fun m => s.cbAnswers.getD m (Config.freeByte (s.drawCount + m))

/-- `n` answer bytes are used up. -/
def State.drewBytes (s : State) (n : Nat) : State :=
  { s with cbAnswers := s.cbAnswers.drop n, drawCount := s.drawCount + n }

/-- The bus's next answer: the one the environment has placed, or a free one (log entry 5). -/
def State.nextBusAnswer (s : State) : BusAnswer := s.busAnswers.headD (Config.freeBusAnswer s.drawCount)

/-- One bus answer is used up. -/
def State.drewBus (s : State) : State := { s with busAnswers := s.busAnswers.tail, drawCount := s.drawCount + 1 }

/-! ### The serializer (rule R182) -/

/-- `serialize(pid, type, p)`: the envelope with a correct checksum. -/
def serialize (c : Config) (pid ty : Byte) (p : Bytes) : Bytes :=
  let len := BitVec.ofNat 8 p.length
  [startByte, pid, ty, len] ++ p ++ wireCksum c.cksumOrder (fletcher16 (ty :: len :: p))

/-- An envelope as the link carries it (rules R95 and R160). -/
def linkFrame (c : Config) (env : Bytes) : Bytes :=
  match c.linkMode with
  | .raw => env
  | .stuffed => enc env c.linkDelim ++ [c.linkDelim]

/-- `respond(p)`: one write of the response to the held packet, then one flush. -/
def State.respond (s : State) (p : Bytes) : State :=
  { s with tx := s.tx ++ [.write (linkFrame s.cfg (serialize s.cfg s.rxPid s.cfg.tResponse p)), .flush] }

/-- A packet, or the beginning of one, is given up (rule R35). -/
def State.countDrop (s : State) : State := { s with pktDropped := s.pktDropped + 1 }

/-! ### The reader (rules R164 to R167) -/

/-- The reader takes one byte (rule R166). In phase `Ready` it takes none. -/
def State.readerByte (s : State) (b : Byte) : State :=
  match s.rxPhase with
  | .scan => if b = startByte then { s with rxPhase := .pid } else s
  | .pid => { s with rxPid := b, rxPhase := .type }
  | .type => { s with rxType := b, rxPhase := .len }
  | .len => { s with rxLen := b, rxPayload := [], rxPhase := if b = 0 then .ck0 else .payload }
  | .payload =>
    { s with
      rxPayload := s.rxPayload ++ [b]
      rxPhase := if s.rxPayload.length + 1 = s.rxLen.toNat then .ck0 else .payload }
  | .ck0 => { s with rxCk0 := b, rxPhase := .ck1 }
  | .ck1 => { s with rxCk1 := b, rxPhase := .ready }
  | .ready => s

/-- A frame boundary reaches the reader: a partial envelope is abandoned and counted (rule R167). -/
def State.frameEnd (s : State) : State :=
  if s.rxPhase = .scan then s else { s.countDrop with rxPhase := .scan }

/-- The link receiver takes one byte of a stuffed link (rule R161). -/
def State.linkByte (s : State) (b : Byte) : State :=
  if b = s.cfg.linkDelim then State.frameEnd { s with ctxL := s.ctxL.unstuffEnd.2 }
  else (s.ctxL.unstuffByte b).1.foldl State.readerByte { s with ctxL := (s.ctxL.unstuffByte b).2 }

/-! ### The dispatcher (rule R170) -/

/-- What every dispatch does first: the checksum is stored with its verdict and the reader is back in `Scan`. -/
def State.latch (s : State) : State :=
  let ck := assembleCksum s.cfg.cksumOrder s.rxCk0 s.rxCk1
  { s with
    pktCksum := ck
    pktCksumOk := cksumVerdict ck s.rxType s.rxLen s.rxPayload
    rxPhase := .scan }

/-- The packet is dropped without a response: over length (rule R171), or a wrong checksum under strictness (rule R172). -/
def State.dropsPacket (s : State) : Bool :=
  decide (maxLen < s.rxLen.toNat) || (s.cfg.checksumStrict && !s.pktCksumOk)

/-- `call CB.get_status()`: the answer, and the state after the call (rule R174). -/
def State.callGetStatus (s : State) : Bytes × State :=
  let buf := s.answerBytes s.cfg.statusSize
  (buf, { s.drewBytes s.cfg.statusSize with cb := s.cb ++ [.getStatus buf] })

/-- `call CB.command(idx, params)`: the answer, and the state after the call (rule R178). -/
def State.callCommand (s : State) (idx : Byte) (params : Bytes) : Byte × State :=
  let e := s.cbAnswers.getD 0 (Config.freeByte s.drawCount)
  (e, { s.drewBytes 1 with cb := s.cb ++ [.command idx params e] })

/-- The response payload of a Command, with the three checks in their order (rules R175 to R178). -/
def State.answerCommand (s : State) : Bytes × State :=
  if s.rxLen = 0 then ([s.cfg.eInvalidFunction], s)
  else
    match s.rxPayload with
    | [] => ([s.cfg.eInvalidFunction], s)
    | idx :: params =>
      match s.cfg.minParams[idx.toNat]? with
      | none => ([s.cfg.eInvalidFunction], s)
      | some m =>
        if params.length < m then ([s.cfg.eInsufficientParams], s)
        else ([(s.callCommand idx params).1], (s.callCommand idx params).2)

/-- The response data of Identify (rule R93). -/
def identData (c : Config) : Bytes := c.identVersion ++ [BitVec.ofNat 8 c.numCmds] ++ c.identName

/-- The response payload of the held packet and the state after any callback (rules R173 to R180). -/
def State.answer (s : State) : Bytes × State :=
  match packetKind s.cfg s.rxType with
  | .identify => (s.cfg.eSuccess :: identData s.cfg, s)
  | .status => (s.cfg.eSuccess :: s.callGetStatus.1, s.callGetStatus.2)
  | .command => s.answerCommand
  | .ping => ([s.cfg.eSuccess], s)
  | .response => ([s.cfg.eInvalidPacketType], s)
  | .unknown => ([s.cfg.eInvalidPacketType], s)

/-- The dispatch of the held packet (rule R170). -/
def State.dispatch (s : State) : State :=
  if s.latch.dropsPacket then s.latch.countDrop
  else s.latch.answer.2.respond s.latch.answer.1

/-- The error code the dispatch of the held packet answers with, if it answers (rule R84: byte 0 of the payload). -/
def State.answerCode (s : State) : Option Byte :=
  if s.latch.dropsPacket then none else s.latch.answer.1.head?

/-! ### Whole packets -/

/-- One byte of the transport in the configured link mode (rule R160). -/
def State.transportByte (s : State) (b : Byte) : State :=
  match s.cfg.linkMode with
  | .raw => s.readerByte b
  | .stuffed => s.linkByte b

/-- One byte of the transport, with the dispatch of the packet it completes, if it does (rule R101). -/
def State.transportByteDispatch (s : State) (b : Byte) : State :=
  if (s.transportByte b).rxPhase = .ready then (s.transportByte b).dispatch else s.transportByte b

/-- `RX.BYTES` or `LINK.RXBYTES`, as the link mode has it (rule R101). -/
def State.transportBytes (s : State) (bs : Bytes) : State := bs.foldl State.transportByteDispatch s

/-- A whole packet envelope crosses the link (rules R82, R95 and R160). -/
def receivePacket (ty pid : Byte) (payload : Bytes) (ck0 ck1 : Byte) (s : State) : Result :=
  if 255 < payload.length then .refused .payloadTooLong
  else whileReading s ((s.transportBytes (linkFrame s.cfg (envelopeBytes pid ty payload ck0 ck1))).returns .none)

end Sys2Proof.Machine
end

