-- ==== Sys2Proof/Machine/Bus.lean ====
section
/-! DEFINITION. The operations of unit 3, BUS (spec/43_bus_router.md), and the rows of the opcode table that name a
channel. -/

namespace Sys2Proof.Machine

open Sys2Proof

/-- The record a status message carries, for the one length that has one (rules R89 and R204). -/
def statusRecord (payload : Bytes) : Option Device :=
  match payload with
  | [b0, b1, b2, b3, b4] => some ⟨b0, b1, b2, b3, b4⟩
  | _ => none

/-- The device a message updates, with its new record: only a status message of the expected length (rule R204). -/
def statusUpdate (target : Option (Nat × Channel)) (payload : Bytes) : Option (Nat × Device) :=
  match target with
  | some (k, .status) => (statusRecord payload).map fun d => (k, d)
  | _ => none

/-- A message is received: at most one device record is written, then one `ROUTE` event is emitted (rules R202 and R205). -/
def State.receive (s : State) (id : BitVec 32) (payload : Bytes) : State :=
  let target := matchId s.cfg id
  match statusUpdate target payload with
  | some (k, d) => { s.setDevice k d with route := s.route ++ [⟨id, payload, target, true⟩] }
  | none => { s with route := s.route ++ [⟨id, payload, target, false⟩] }

/-- A message the bus presents, refused over `BUS_MAX_PAYLOAD` (rule R202). -/
def busReceive (id : BitVec 32) (payload : Bytes) (s : State) : Result :=
  if s.cfg.busMaxPayload < payload.length then .refused .busPayloadTooLong
  else (s.receive id payload).returns .none

/-- `BUS.RECV id, payload` (rule R202). -/
def execBusRecv (id : BitVec 32) (payload : Bytes) (s : State) : Result := busReceive id payload s

/-- `BUS.SEND_CONTROL k, value` (rule R206): one message, and the bus's answer passed on. -/
def execBusSendControl (k : Nat) (value : Byte) (s : State) : Result :=
  match s.cfg.baseIds[k]? with
  | none => s.returnErr s.cfg.eInvalidDevice
  | some base =>
    State.returns { s.drewBus with busTx := s.busTx ++ [⟨channelId base .control, [value]⟩] }
      (.busAnswer s.nextBusAnswer)

/-- `DEV.GET k` (rule R208): the whole record, as one unit (rule R66). -/
def execDevGet (k : Nat) (s : State) : Result :=
  match s.dev[k]? with
  | none => s.returnErr s.cfg.eInvalidDevice
  | some d => s.returns (.device d)

/-- `BUS.CHANID k, ch` (rule R209). -/
def execBusChanid (k ch : Nat) (s : State) : Result :=
  match channelAt ch with
  | none => .refused .noSuchChannel
  | some channel =>
    match s.cfg.baseIds[k]? with
    | none => s.returnErr s.cfg.eInvalidDevice
    | some base => s.returns (.u32 (channelId base channel))

/-- A message arrives on a channel of device `k` (rules R88 and R202). -/
def receiveOn (ch : Channel) (k : Nat) (payload : Bytes) (s : State) : Result :=
  match s.cfg.baseIds[k]? with
  | none => .refused .noSuchDevice
  | some base => busReceive (channelId base ch) payload s

/-- `CH.COMM` (rule R205): routed, no state change. -/
def execChComm (k : Nat) (payload : Bytes) (s : State) : Result := receiveOn .comm k payload s

/-- `CH.CONTROL` (rule R205): a received control message is routed, no state change; the sending of one is
`execBusSendControl`. -/
def execChControl (k : Nat) (payload : Bytes) (s : State) : Result := receiveOn .control k payload s

/-- `CH.STATUS` (rule R204): a payload of five bytes replaces the record. -/
def execChStatus (k : Nat) (payload : Bytes) (s : State) : Result := receiveOn .status k payload s

/-- `CH.MISC` (rule R205): routed, no state change. -/
def execChMisc (k : Nat) (payload : Bytes) (s : State) : Result := receiveOn .misc k payload s

end Sys2Proof.Machine
end

