-- ==== Sys2Proof/Machine/Button.lean ====
section
/-! DEFINITION. The operations of unit 4, BTN (spec/44_button_fsm.md). -/

namespace Sys2Proof.Machine

open Sys2Proof

/-- The next state by the transition table of rule R221, for sample `p` and elapsed time `e`; `none` where the table lists
no transition. -/
def nextGesture (c : Config) (st : GestureState) (p : Bool) (e : Int) : Option GestureState :=
  match st with
  | .idle => if p then some .debounce else none
  | .debounce => if p then (if (c.debounceUs : Int) ≤ e then some .pressed else none) else some .idle
  | .pressed => if p then (if (c.longClickUs : Int) ≤ e then some .longClick else none) else some .clickUp
  | .clickUp => some .clickIdle
  | .clickIdle =>
    if p then some .doubleClickDebounce else if (c.singleClickUs : Int) ≤ e then some .singleClick else none
  | .doubleClickDebounce => if p then (if (c.debounceUs : Int) ≤ e then some .doubleClick else none) else some .clickIdle
  | .doubleClick => if p then none else some .otherUp
  | .longClick => if p then none else some .otherUp
  | .singleClick => some .idle
  | .otherUp => some .idle

/-- One tick of an instance (rule R223). -/
def Button.tick (c : Config) (b : Button) (p : Bool) (now : BitVec 64) : Button :=
  let next := nextGesture c b.state p (elapsed now b.lastTransitionTime)
  match next with
  | some st => { state := st, lastTransitionTime := now, fresh := freshAfter next }
  | none => { b with fresh := freshAfter next }

/-- `BTN.TICK i, pressed, now` (rule R223). -/
def execBtnTick (n : Nat) (pressed : Bool) (now : BitVec 64) (s : State) : Result :=
  withButton n s fun b => (s.setButton n (b.tick s.cfg pressed now)).returns .none

/-- `BTN.IS_CLICK i` (rule R227). -/
def execBtnIsClick (n : Nat) (s : State) : Result := withButton n s fun b => s.returns (.bool b.isClick)

/-- `BTN.IS_SINGLE_CLICK i` (rule R228). -/
def execBtnIsSingleClick (n : Nat) (s : State) : Result := withButton n s fun b => s.returns (.bool b.isSingleClick)

/-- `BTN.IS_DOUBLE_CLICK i` (rule R229). -/
def execBtnIsDoubleClick (n : Nat) (s : State) : Result := withButton n s fun b => s.returns (.bool b.isDoubleClick)

/-- `BTN.IS_LONG_CLICK i` (rule R230). -/
def execBtnIsLongClick (n : Nat) (s : State) : Result := withButton n s fun b => s.returns (.bool b.isLongClick)

/-- `BTN.IS_RELEASED i` (rule R231). -/
def execBtnIsReleased (n : Nat) (s : State) : Result :=
  withButton n s fun b => s.returns (.bool (b.isReleased s.cfg))

/-- `BTN.STATE i` (rule R232). -/
def execBtnState (n : Nat) (s : State) : Result := withButton n s fun b => s.returns (.gesture b.state b.fresh)

end Sys2Proof.Machine
end

