-- ==== Sys2Proof/Machine/Cksum.lean ====
section
/-! DEFINITION. The operations of unit 1, CKSUM (spec/41_checksum.md). -/

namespace Sys2Proof.Machine

open Sys2Proof

/-- `CKSUM in` (rule R141). -/
def execCksum (input : Bytes) (s : State) : Result :=
  withBuffer input.length s.cfg.maxBuf (s.returns (.u16 (fletcher16 input)))

/-- The check bytes for the accumulators `(f0, f1)`, as a returned pair (rule R144). -/
def returnCheckBytes (f0 f1 : Byte) (s : State) : Result :=
  s.returns (.pair (checkByteA f0 f1) (checkByteB f0 (checkByteA f0 f1)))

/-- `CHECKBYTES in` (rule R144): refused unless the two check bytes fit behind the input. -/
def execCheckbytes (input : Bytes) (s : State) : Result :=
  withBuffer (input.length + 2) s.cfg.maxBuf
    (returnCheckBytes (cksumLo (fletcher16 input)) (cksumHi (fletcher16 input)) s)

/-- `VERIFY in` (rule R146). -/
def execVerify (input : Bytes) (s : State) : Result :=
  withBuffer input.length s.cfg.maxBuf (s.returns (.bool (decide (fletcher16 input = 0x0000))))

/-- `CK.RESET` (rule R150). -/
def execCkReset (s : State) : Result := State.returns { s with ckSum1 := 0, ckSum2 := 0 } .none

/-- `CK.BYTE b` (rule R151): the second sum uses the new first sum. -/
def execCkByte (b : Byte) (s : State) : Result :=
  State.returns { s with ckSum1 := sum1Step s.ckSum1 b, ckSum2 := sum2Step s.ckSum2 (sum1Step s.ckSum1 b) } .none

/-- `CK.READ` (rule R152). -/
def execCkRead (s : State) : Result := s.returns (.u16 (cksumWord s.ckSum1 s.ckSum2))

/-- `CK.CHECKBYTES` (rule R153). -/
def execCkCheckbytes (s : State) : Result := returnCheckBytes s.ckSum1 s.ckSum2 s

end Sys2Proof.Machine
end

