-- ==== Sys2Proof/Machine/Codec.lean ====
section
/-! DEFINITION. The operations of unit 0, CODEC (spec/40_framing_codec.md). The byte-serial ones act on context `H`. -/

namespace Sys2Proof.Machine

open Sys2Proof

/-- `ENC in, d` (rule R112): refused over `MAX_BUF`, for its input or its output. -/
def execEnc (input : Bytes) (d : Byte) (s : State) : Result :=
  withBuffer input.length s.cfg.maxBuf
    (withBuffer (enc input d).length s.cfg.maxBuf (s.returns (.bytes (enc input d))))

/-- `DEC in, d` (rule R116). -/
def execDec (input : Bytes) (d : Byte) (s : State) : Result :=
  withBuffer input.length s.cfg.maxBuf (s.returns (.bytes (dec input d)))

/-- `MAXENC n` (rule R115). -/
def execMaxenc (n : Nat) (s : State) : Result := s.returns (.nat (maxenc n))

/-- `STUFF.BEGIN d` (rule R122). -/
def execStuffBegin (d : Byte) (s : State) : Result :=
  State.returns { s with ctxH := s.ctxH.stuffBegin d } .none

/-- `STUFF.BYTE b` (rule R123). -/
def execStuffByte (b : Byte) (s : State) : Result :=
  State.returns { s with ctxH := (s.ctxH.stuffByte b).2 } (.bytes (s.ctxH.stuffByte b).1)

/-- `STUFF.END` (rule R124). -/
def execStuffEnd (s : State) : Result :=
  State.returns { s with ctxH := s.ctxH.stuffEnd.2 } (.bytes s.ctxH.stuffEnd.1)

/-- `UNSTUFF.BEGIN d` (rule R126). -/
def execUnstuffBegin (d : Byte) (s : State) : Result :=
  State.returns { s with ctxH := s.ctxH.unstuffBegin d } .none

/-- A byte reaches the `HOST` unstuffer (rule R127). -/
def hostUnstuff (b : Byte) (s : State) : Result :=
  State.returns { s with ctxH := (s.ctxH.unstuffByte b).2 } (.bytes (s.ctxH.unstuffByte b).1)

/-- `UNSTUFF.BYTE b` (rule R127). -/
def execUnstuffByte (b : Byte) (s : State) : Result := hostUnstuff b s

/-- `UNSTUFF.END` (rule R128): it returns `complete`. -/
def execUnstuffEnd (s : State) : Result :=
  State.returns { s with ctxH := s.ctxH.unstuffEnd.2 } (.bool s.ctxH.unstuffEnd.1)

end Sys2Proof.Machine
end

