-- ==== Sys2Proof/Machine/CodeRows.lean ====
section
/-! DEFINITION. The rows of the opcode table that name a stuffing code byte: the byte reaches the `HOST` unstuffer, which
takes it as a code byte where one is due (spec/40_framing_codec.md rules R117, R119 and R127). -/

namespace Sys2Proof.Machine

open Sys2Proof

/-- `CODE.STOP`: the code byte `0x00` (rule R119). -/
def execCodeStop (s : State) : Result := hostUnstuff 0x00 s

/-- `CODE.FULLRUN`: the code byte `0xFF` (rule R117). -/
def execCodeFullrun (s : State) : Result := hostUnstuff 0xFF s

/-- `CODE.RUN c`: any other code byte (rule R117). -/
def execCodeRun (c : Byte) (s : State) : Result := hostUnstuff c s

end Sys2Proof.Machine
end

