-- ==== Sys2Proof/Machine/Light.lean ====
section
/-! DEFINITION. The operations of unit 5, LIGHT (spec/45_status_light.md). -/

namespace Sys2Proof.Machine

open Sys2Proof

/-- The entry effect of the update that finds `state_changed` set (rule R252). -/
def Light.enter (l : Light) (now : BitVec 64) : Light :=
  match l.state with
  | .on => { l with stateChanged := false, out := true }
  | .off => { l with stateChanged := false, out := false }
  | .blink => { l with stateChanged := false, blinkValue := false, out := false, lastTime := now }
  | .blinkCount => { l with stateChanged := false, blinkValue := false, out := false, lastTime := now }

/-- The phase timer exceeds the blink period (rule R253: strictly). -/
def Light.phaseOver (l : Light) (now : BitVec 64) : Bool := decide (l.blinkPeriod.toInt < elapsed now l.lastTime)

/-- The inversion of the blink phase, with the timer reset (rule R253). -/
def Light.invert (l : Light) (now : BitVec 64) : Light :=
  { l with blinkValue := !l.blinkValue, out := !l.blinkValue, lastTime := now }

/-- A tick of a counted blink (rules R254 and R255). -/
def Light.countedBlink (l : Light) (now : BitVec 64) : Light :=
  if l.blinkTargetCount.toNat ≤ l.blinkToggleCount.toNat then { l with blinkValue := false, out := false }
  else if l.phaseOver now then
    { l.invert now with
      blinkToggleCount := if l.blinkValue then l.blinkToggleCount + 1 else l.blinkToggleCount }
  else l

/-- One update of an instance (rule R251). -/
def Light.update (l : Light) (now : BitVec 64) : Light :=
  if l.stateChanged then l.enter now
  else
    match l.state with
    | .on => l
    | .off => l
    | .blink => if l.phaseOver now then l.invert now else l
    | .blinkCount => l.countedBlink now

/-- `toggle`: the three-way switch of rule R259. -/
def Light.toggled (l : Light) : Light :=
  match l.state with
  | .off => l.intend .on
  | .on => l.intend .off
  | .blink => l.intend .on
  | .blinkCount => l.intend .on

/-- `blink(period)` (rule R260). -/
def Light.startBlink (l : Light) (period : BitVec 64) : Light := Light.intend { l with blinkPeriod := period } .blink

/-- `blink_toggle(period)` (rules R261 and R262). -/
def Light.blinkToggled (l : Light) (period : BitVec 64) : Light :=
  if l.state = .blink then l.intend .off else l.startBlink period

/-- `blink_count(period, n)` (rule R263). -/
def Light.startCount (l : Light) (period : BitVec 64) (count : BitVec 32) : Light :=
  Light.intend { l with blinkPeriod := period, blinkTargetCount := count, blinkToggleCount := 0 } .blinkCount

/-- `LIGHT.UPDATE j, now` (rule R251). -/
def execLightUpdate (j : Nat) (now : BitVec 64) (s : State) : Result :=
  withLight j s fun l => (s.setLight j (l.update now)).returns .none

/-- `LIGHT.SET j, v` (rule R258). -/
def execLightSet (j : Nat) (v : Bool) (s : State) : Result :=
  withLight j s fun l => (s.setLight j (l.intend (if v then .on else .off))).returns .none

/-- `LIGHT.TOGGLE j` (rule R259). -/
def execLightToggle (j : Nat) (s : State) : Result :=
  withLight j s fun l => (s.setLight j l.toggled).returns .none

/-- `LIGHT.BLINK j, period` (rule R260). -/
def execLightBlink (j : Nat) (period : BitVec 64) (s : State) : Result :=
  withLight j s fun l => withPeriod period ((s.setLight j (l.startBlink period)).returns .none)

/-- `LIGHT.BLINK_TOGGLE j, period` (rule R261). -/
def execLightBlinkToggle (j : Nat) (period : BitVec 64) (s : State) : Result :=
  withLight j s fun l => withPeriod period ((s.setLight j (l.blinkToggled period)).returns .none)

/-- `LIGHT.BLINK_COUNT j, period, n` (rule R263). -/
def execLightBlinkCount (j : Nat) (period : BitVec 64) (count : BitVec 32) (s : State) : Result :=
  withLight j s fun l => withPeriod period ((s.setLight j (l.startCount period count)).returns .none)

/-- `LIGHT.OUT j` (rule R264): the pin. -/
def execLightOut (j : Nat) (s : State) : Result := withLight j s fun l => s.returns (.bool l.out)

end Sys2Proof.Machine
end

