-- ==== Sys2Proof/Machine/Packet.lean ====
section
/-! DEFINITION. The operations of unit 2, PKT (spec/42_packet_envelope.md), and the rows of the opcode table that name a
packet type, a response's error code or the start marker. -/

namespace Sys2Proof.Machine

open Sys2Proof

/-- A byte reaches the reader at `TRANSPORT_RX`: link mode `raw` only, and only while no packet is held (rule R166). -/
def rawReader (b : Byte) (s : State) : Result :=
  inLinkMode .raw s (whileReading s ((s.readerByte b).returns .none))

/-- `RX.BYTE b` (rule R166). -/
def execRxByte (b : Byte) (s : State) : Result := rawReader b s

/-- `RX.FRAME_END` (rule R167): link mode `stuffed` only, and `rx_phase` "is never Ready here". -/
def execRxFrameEnd (s : State) : Result :=
  inLinkMode .stuffed s (whileReading s (s.frameEnd.returns .none))

/-- `PKT.DISPATCH` (rule R170). -/
def execPktDispatch (s : State) : Result := whileReady s (s.dispatch.returns .none)

/-- `TX.SERIALIZE pid, type, payload` (rule R183): it emits nothing, and is not enabled in `Ready` (rule R32, log entry 23). -/
def execTxSerialize (pid ty : Byte) (payload : Bytes) (s : State) : Result :=
  if maxLen < payload.length then .refused .payloadTooLong
  else whileReading s (s.returns (.bytes (serialize s.cfg pid ty payload)))

/-- `PKT.CKSTAT` (rule R184), not enabled in `Ready` (rule R32, log entry 23). -/
def execPktCkstat (s : State) : Result :=
  whileReading s (s.returns (.ckstat s.pktCksum s.pktCksumOk s.pktDropped s.rxPhase))

/-- `LINK.RXBYTE b` (rule R161): link mode `stuffed` only, and only while no packet is held. -/
def execLinkRxbyte (b : Byte) (s : State) : Result :=
  inLinkMode .stuffed s (whileReading s ((s.linkByte b).returns .none))

/-! ### Packet types: a whole envelope of the type crosses the link and is dispatched -/

/-- `PKT.IDENTIFY` (rule R173). -/
def execPktIdentify (pid : Byte) (payload : Bytes) (ck0 ck1 : Byte) (s : State) : Result :=
  receivePacket s.cfg.tIdentify pid payload ck0 ck1 s

/-- `PKT.STATUS` (rule R174). -/
def execPktStatus (pid : Byte) (payload : Bytes) (ck0 ck1 : Byte) (s : State) : Result :=
  receivePacket s.cfg.tStatus pid payload ck0 ck1 s

/-- `PKT.COMMAND` (rule R175). -/
def execPktCommand (pid : Byte) (payload : Bytes) (ck0 ck1 : Byte) (s : State) : Result :=
  receivePacket s.cfg.tCommand pid payload ck0 ck1 s

/-- `PKT.PING` (rule R180). -/
def execPktPing (pid : Byte) (payload : Bytes) (ck0 ck1 : Byte) (s : State) : Result :=
  receivePacket s.cfg.tPing pid payload ck0 ck1 s

/-- `PKT.RESPONSE`: a response sent to the block, an unknown type for its dispatcher (rule R179). -/
def execPktResponse (pid : Byte) (payload : Bytes) (ck0 ck1 : Byte) (s : State) : Result :=
  receivePacket s.cfg.tResponse pid payload ck0 ck1 s

/-- `PKT.UNKNOWN` (rule R179). -/
def execPktUnknown (ty pid : Byte) (payload : Bytes) (ck0 ck1 : Byte) (s : State) : Result :=
  receivePacket ty pid payload ck0 ck1 s

/-! ### Error codes: the held packet is dispatched, and its response carries the code -/

/-- The dispatcher answers the held packet with the given error code (rules R12 and R84), where that is what rule R170
answers it with. -/
def respondCode (code : Byte) (s : State) : Result :=
  whileReady s (if s.answerCode = some code then s.dispatch.returns .none else .refused .otherAnswer)

/-- `E_SUCCESS` (rules R180 and R281). -/
def execESuccess (s : State) : Result := respondCode s.cfg.eSuccess s

/-- `E_INVALID_PACKET_TYPE` (rule R179). -/
def execEInvalidPacketType (s : State) : Result := respondCode s.cfg.eInvalidPacketType s

/-- `E_INVALID_FUNCTION` (rules R176 and R177). -/
def execEInvalidFunction (s : State) : Result := respondCode s.cfg.eInvalidFunction s

/-- `E_INSUFFICIENT_PARAMS` (rule R178). -/
def execEInsufficientParams (s : State) : Result := respondCode s.cfg.eInsufficientParams s

/-- `E_INVALID_DEVICE` in a response: a handler returned it (rules R207 and R281). -/
def execEInvalidDevice (s : State) : Result := respondCode s.cfg.eInvalidDevice s

/-- `E_UNKNOWN`: a handler's answer (rules R178 and R281). -/
def execEUnknown (s : State) : Result := respondCode s.cfg.eUnknown s

/-- `START`: the marker byte reaches the reader (rules R164 and R166). -/
def execStart (s : State) : Result := rawReader startByte s

end Sys2Proof.Machine
end

