-- ==== Sys2Proof/Machine/Dispatch.lean ====
section
/-! DEFINITION. The one meaning of every row of spec/opcode_table.json. -/

namespace Sys2Proof.Machine

open Sys2Proof

def exec (i : Instr) (s : State) : Host.Outcome State Fault Refusal :=
  match i with
  | .enc input d => Sys2Proof.Machine.execEnc input d s
  | .dec input d => Sys2Proof.Machine.execDec input d s
  | .maxenc n => Sys2Proof.Machine.execMaxenc n s
  | .stuffBegin d => Sys2Proof.Machine.execStuffBegin d s
  | .stuffByte b => Sys2Proof.Machine.execStuffByte b s
  | .stuffEnd => Sys2Proof.Machine.execStuffEnd s
  | .unstuffBegin d => Sys2Proof.Machine.execUnstuffBegin d s
  | .unstuffByte b => Sys2Proof.Machine.execUnstuffByte b s
  | .unstuffEnd => Sys2Proof.Machine.execUnstuffEnd s
  | .cksum input => Sys2Proof.Machine.execCksum input s
  | .checkbytes input => Sys2Proof.Machine.execCheckbytes input s
  | .verify input => Sys2Proof.Machine.execVerify input s
  | .ckReset => Sys2Proof.Machine.execCkReset s
  | .ckByte b => Sys2Proof.Machine.execCkByte b s
  | .ckRead => Sys2Proof.Machine.execCkRead s
  | .ckCheckbytes => Sys2Proof.Machine.execCkCheckbytes s
  | .rxByte b => Sys2Proof.Machine.execRxByte b s
  | .rxFrameEnd => Sys2Proof.Machine.execRxFrameEnd s
  | .pktDispatch => Sys2Proof.Machine.execPktDispatch s
  | .txSerialize pid ty payload => Sys2Proof.Machine.execTxSerialize pid ty payload s
  | .pktCkstat => Sys2Proof.Machine.execPktCkstat s
  | .linkRxbyte b => Sys2Proof.Machine.execLinkRxbyte b s
  | .busRecv id payload => Sys2Proof.Machine.execBusRecv id payload s
  | .busSendControl k value => Sys2Proof.Machine.execBusSendControl k value s
  | .devGet k => Sys2Proof.Machine.execDevGet k s
  | .busChanid k ch => Sys2Proof.Machine.execBusChanid k ch s
  | .btnTick n pressed now => Sys2Proof.Machine.execBtnTick n pressed now s
  | .btnIsClick n => Sys2Proof.Machine.execBtnIsClick n s
  | .btnIsSingleClick n => Sys2Proof.Machine.execBtnIsSingleClick n s
  | .btnIsDoubleClick n => Sys2Proof.Machine.execBtnIsDoubleClick n s
  | .btnIsLongClick n => Sys2Proof.Machine.execBtnIsLongClick n s
  | .btnIsReleased n => Sys2Proof.Machine.execBtnIsReleased n s
  | .btnState n => Sys2Proof.Machine.execBtnState n s
  | .lightUpdate j now => Sys2Proof.Machine.execLightUpdate j now s
  | .lightSet j v => Sys2Proof.Machine.execLightSet j v s
  | .lightToggle j => Sys2Proof.Machine.execLightToggle j s
  | .lightBlink j period => Sys2Proof.Machine.execLightBlink j period s
  | .lightBlinkToggle j period => Sys2Proof.Machine.execLightBlinkToggle j period s
  | .lightBlinkCount j period count => Sys2Proof.Machine.execLightBlinkCount j period count s
  | .lightOut j => Sys2Proof.Machine.execLightOut j s
  | .pktIdentify pid payload ck0 ck1 => Sys2Proof.Machine.execPktIdentify pid payload ck0 ck1 s
  | .pktStatus pid payload ck0 ck1 => Sys2Proof.Machine.execPktStatus pid payload ck0 ck1 s
  | .pktCommand pid payload ck0 ck1 => Sys2Proof.Machine.execPktCommand pid payload ck0 ck1 s
  | .pktPing pid payload ck0 ck1 => Sys2Proof.Machine.execPktPing pid payload ck0 ck1 s
  | .pktResponse pid payload ck0 ck1 => Sys2Proof.Machine.execPktResponse pid payload ck0 ck1 s
  | .pktUnknown ty pid payload ck0 ck1 => Sys2Proof.Machine.execPktUnknown ty pid payload ck0 ck1 s
  | .eSuccess => Sys2Proof.Machine.execESuccess s
  | .eInvalidPacketType => Sys2Proof.Machine.execEInvalidPacketType s
  | .eInvalidFunction => Sys2Proof.Machine.execEInvalidFunction s
  | .eInsufficientParams => Sys2Proof.Machine.execEInsufficientParams s
  | .eInvalidDevice => Sys2Proof.Machine.execEInvalidDevice s
  | .eUnknown => Sys2Proof.Machine.execEUnknown s
  | .chComm k payload => Sys2Proof.Machine.execChComm k payload s
  | .chControl k payload => Sys2Proof.Machine.execChControl k payload s
  | .chStatus k payload => Sys2Proof.Machine.execChStatus k payload s
  | .chMisc k payload => Sys2Proof.Machine.execChMisc k payload s
  | .codeStop => Sys2Proof.Machine.execCodeStop s
  | .codeFullrun => Sys2Proof.Machine.execCodeFullrun s
  | .codeRun c => Sys2Proof.Machine.execCodeRun c s
  | .start => Sys2Proof.Machine.execStart s

end Sys2Proof.Machine
end

