-- ==== Sys2Proof/Machine/Fetch.lean ====
section
/-! DEFINITION. Which operation is taken next: the block has no program counter (spec/10_state.md rule R22); the environment
offers operations and the dispatcher steps by itself (spec/60_exceptions.md rule R296). -/

namespace Sys2Proof.Machine

open Sys2Proof

/-- The ports at which operations are invoked (spec/00_scope.md rule R15). -/
inductive Port where
  | host
  | transportRx
  | internal
  | busRx
  | tick
  | app
  deriving DecidableEq, Repr

/-- The port of each operation (spec/30_encoding.md rule R96), and of each wire row: where its item is taken in, or
`internal` for what the dispatcher does. -/
def portOf : Instr → Port
  | .enc .. => .host
  | .dec .. => .host
  | .maxenc .. => .host
  | .stuffBegin .. => .host
  | .stuffByte .. => .host
  | .stuffEnd => .host
  | .unstuffBegin .. => .host
  | .unstuffByte .. => .host
  | .unstuffEnd => .host
  | .cksum .. => .host
  | .checkbytes .. => .host
  | .verify .. => .host
  | .ckReset => .host
  | .ckByte .. => .host
  | .ckRead => .host
  | .ckCheckbytes => .host
  | .rxByte .. => .transportRx
  | .rxFrameEnd => .transportRx
  | .pktDispatch => .internal
  | .txSerialize .. => .host
  | .pktCkstat => .host
  | .linkRxbyte .. => .transportRx
  | .busRecv .. => .busRx
  | .busSendControl .. => .app
  | .devGet .. => .app
  | .busChanid .. => .app
  | .btnTick .. => .tick
  | .btnIsClick .. => .app
  | .btnIsSingleClick .. => .app
  | .btnIsDoubleClick .. => .app
  | .btnIsLongClick .. => .app
  | .btnIsReleased .. => .app
  | .btnState .. => .app
  | .lightUpdate .. => .tick
  | .lightSet .. => .app
  | .lightToggle .. => .app
  | .lightBlink .. => .app
  | .lightBlinkToggle .. => .app
  | .lightBlinkCount .. => .app
  | .lightOut .. => .app
  | .pktIdentify .. => .transportRx
  | .pktStatus .. => .transportRx
  | .pktCommand .. => .transportRx
  | .pktPing .. => .transportRx
  | .pktResponse .. => .transportRx
  | .pktUnknown .. => .transportRx
  | .eSuccess => .internal
  | .eInvalidPacketType => .internal
  | .eInvalidFunction => .internal
  | .eInsufficientParams => .internal
  | .eInvalidDevice => .internal
  | .eUnknown => .internal
  | .chComm .. => .busRx
  | .chControl .. => .busRx
  | .chStatus .. => .busRx
  | .chMisc .. => .busRx
  | .codeStop => .host
  | .codeFullrun => .host
  | .codeRun .. => .host
  | .start => .transportRx

/-- The two operations of PKT that the host invokes (rule R96). -/
def isHostPkt : Instr → Bool
  | .txSerialize .. | .pktCkstat => true
  | _ => false

/-- The operation is one of PKT that the dispatch goes before: one that takes what the transport brings (rules R170 and R308)
or one the host invokes (rules R32 and R101, log entry 23). -/
abbrev afterHeldPacket (i : Instr) : Prop := portOf i = .transportRx ∨ isHostPkt i = true

/-- The operation waits for the dispatch of the packet that is held. -/
abbrev waits (i : Instr) (s : State) : Prop := afterHeldPacket i ∧ s.rxPhase = .ready

/-- What a step takes next. -/
inductive Fetched where
  | idle                                        -- nothing is offered and nothing is held
  | internalDispatch                            -- the dispatcher's own step
  | noOperation                                 -- the offered word is of no row
  | offered (i : Instr) (rest : List Offer)     -- the offered operation, and what is offered after it
  deriving DecidableEq, Repr

/-- The choice of the next operation (rules R70, R71, R296 and R308). -/
def fetch (s : State) : Fetched :=
  match s.offers with
  | [] => if s.rxPhase = .ready then .internalDispatch else .idle
  | o :: rest =>
    match decode s.cfg o with
    | none => .noOperation
    | some i => if waits i s then .internalDispatch else .offered i rest

end Sys2Proof.Machine
end

