-- ==== Sys2Proof/Machine/Step.lean ====
section
/-! DEFINITION. One step of the block: one agent's operation (spec/60_exceptions.md rule R296). -/

namespace Sys2Proof.Machine

open Sys2Proof

/-- One step (rules R70, R296 and R308). With no operation offered, the dispatcher dispatches the packet it holds, if any,
and the block is otherwise idle. An offered operation runs, except that one of PKT other than the dispatch waits where it is
while a packet is held, and the dispatcher steps (rule R32). A configuration that is none of this hardware has no step (rule R7). -/
def step (s : State) : Host.Outcome State Fault Refusal :=
  if s.cfg.ok then
    match fetch s with
    | .idle => .next s
    | .internalDispatch => exec .pktDispatch s
    | .noOperation => .refused .notAnOperation
    | .offered i rest => exec i { s with offers := rest }
  else .refused .badConfiguration

/-- `s` with the instruction of a table word placed as the next operation offered. -/
def State.withFetchWord (s : State) (nbits w : Nat) : State := { s with offers := tableOffer s.cfg nbits w :: s.offers }

end Sys2Proof.Machine
end

