-- ==== Sys2Proof/Machine/Premises.lean ====
section
/-! DEFINITION. The premises on the environment that spec/70_reset_and_hazards.md rule R302 names: what a claim about a run may
take as a hypothesis on the operations of the run. No operation checks them (log entry 15). -/

namespace Sys2Proof.Machine

open Sys2Proof

/-- The `now` operand of a `BTN.TICK` on button `n`. -/
def buttonTime (n : Nat) : Instr → Option (BitVec 64)
  | .btnTick m _ now => if m = n then some now else none
  | _ => none

/-- The `now` operand of a `LIGHT.UPDATE` on light `j`. -/
def lightTime (j : Nat) : Instr → Option (BitVec 64)
  | .lightUpdate m now => if m = j then some now else none
  | _ => none

/-- The times of the ticks of button `n` in a sequence of operations, in order. -/
def buttonTimes (n : Nat) (ops : List Instr) : List (BitVec 64) := ops.filterMap (buttonTime n)

/-- The times of the updates of light `j` in a sequence of operations, in order. -/
def lightTimes (j : Nat) (ops : List Instr) : List (BitVec 64) := ops.filterMap (lightTime j)

/-- The times of one instance as rule R302 wants them: all in `0 <= now < 2^62`, and none less than one before it. -/
def timesPremise (times : List (BitVec 64)) : Prop :=
  (∀ now ∈ times, 0 ≤ now.toInt ∧ now.toInt < 2 ^ 62) ∧ times.Pairwise fun earlier later => earlier.toInt ≤ later.toInt

/-- THE PREMISE ON TIMESTAMPS of rule R302, on the operations of a run: it holds of the ticks of each button instance and of
the updates of each light instance, each with a time base of its own. -/
def timestampPremise (ops : List Instr) : Prop :=
  (∀ n, timesPremise (buttonTimes n ops)) ∧ ∀ j, timesPremise (lightTimes j ops)

/-- The premise on the operations still to come after those that led to `s`: the times of each instance, with the one it has
stored before them. -/
def State.timestampPremise (s : State) (ops : List Instr) : Prop :=
  (∀ n b, s.btn[n]? = some b → timesPremise (b.lastTransitionTime :: buttonTimes n ops)) ∧
  ∀ j l, s.light[j]? = some l → timesPremise (l.lastTime :: lightTimes j ops)

/-- The operations that the environment has placed (log entry 1). -/
def State.offeredOps (s : State) : List Instr := s.offers.filterMap (decode s.cfg)

end Sys2Proof.Machine
end

