-- ==== Sys2Proof/Machine/Trace.lean ====
section
/-! DEFINITION. The trace language's reading of an execution: the codes of the enumerations (spec/30_encoding.md rule R97)
and the pseudo-operations with their expansions (rule R101). -/

namespace Sys2Proof.Machine

open Sys2Proof

/-- The code of a gesture state (rule R97). -/
def gestureCode : GestureState → Nat
  | .idle => 0
  | .debounce => 1
  | .pressed => 2
  | .clickUp => 3
  | .clickIdle => 4
  | .singleClick => 5
  | .doubleClickDebounce => 6
  | .doubleClick => 7
  | .longClick => 8
  | .otherUp => 9

/-- The code of a light state (rule R97). -/
def lightCode : LightState → Nat
  | .off => 0
  | .on => 1
  | .blink => 2
  | .blinkCount => 3

/-- The code of a reader phase (rule R97). -/
def phaseCode : RxPhase → Nat
  | .scan => 0
  | .pid => 1
  | .type => 2
  | .len => 3
  | .payload => 4
  | .ck0 => 5
  | .ck1 => 6
  | .ready => 7

/-- A sequence of operations, one after the other, up to the first that is refused. -/
def runOps : List Instr → State → Result
  | [], s => .next s
  | i :: rest, s =>
    match exec i s with
    | .next t => runOps rest t
    | .fault r => .fault r
    | .refused r => .refused r

/-- The bytes an operation returned, none if it returned something else. -/
def Ret.toBytes : Ret → Bytes
  | .bytes bs => bs
  | _ => []

/-- The concatenation of the byte sequences a sequence of operations returns, if none is refused. -/
def returnedBytes : List Instr → State → Option Bytes
  | [], _ => some []
  | i :: rest, s =>
    match exec i s with
    | .next t => (returnedBytes rest t).map fun bs => t.ret.toBytes ++ bs
    | _ => none

/-- `STUFF.BYTES [..]`. -/
def stuffBytes (bs : Bytes) : List Instr := bs.map .stuffByte

/-- `UNSTUFF.BYTES [..]`. -/
def unstuffBytes (bs : Bytes) : List Instr := bs.map .unstuffByte

/-- `CK.BYTES [..]`. -/
def ckBytes (bs : Bytes) : List Instr := bs.map .ckByte

/-- One operation per byte, with a `PKT.DISPATCH` after each that leaves the reader in `Ready`. -/
def feedBytes (op : Byte → Instr) : Bytes → State → Result
  | [], s => .next s
  | b :: rest, s =>
    match exec (op b) s with
    | .next t =>
      if t.rxPhase = .ready then
        match exec .pktDispatch t with
        | .next u => feedBytes op rest u
        | .fault r => .fault r
        | .refused r => .refused r
      else feedBytes op rest t
    | .fault r => .fault r
    | .refused r => .refused r

/-- `RX.BYTES [..]`. -/
def rxBytes (bs : Bytes) (s : State) : Result := feedBytes .rxByte bs s

/-- `LINK.RXBYTES [..]`. -/
def linkRxBytes (bs : Bytes) (s : State) : Result := feedBytes .linkRxbyte bs s

/-- The times `t0, t0+dt, ...` that do not pass `t1`. That `t0` and `t1` are `i64` as `now` is, and `dt` a natural number, for
which 0 gives no times, is the model's choice (log entry 24). -/
def tickTimes (t0 t1 : BitVec 64) (dt : Nat) : List (BitVec 64) :=
  (List.range ((t1.toInt + dt - t0.toInt) / dt).toNat).map fun m : Nat => BitVec.ofInt 64 (t0.toInt + m * dt)

/-- `BTN.TICKS i, p, t0, t1, dt`. -/
def btnTicks (n : Nat) (p : Bool) (t0 t1 : BitVec 64) (dt : Nat) : List Instr := (tickTimes t0 t1 dt).map (.btnTick n p)

/-- `LIGHT.UPDATES j, t0, t1, dt`. -/
def lightUpdates (j : Nat) (t0 t1 : BitVec 64) (dt : Nat) : List Instr := (tickTimes t0 t1 dt).map (.lightUpdate j)

end Sys2Proof.Machine
end

