-- ==== Sys2Proof/Safety.lean ====
section
/-! DEFINITION. The terms in which statements about the block are made: the invariant of its state, what a held packet is,
what the dispatch of one leaves, and the link between two packets. -/

namespace Sys2Proof.Machine

open Sys2Proof

/-! ### The invariant -/

/-- The encoder registers of a context (rule R25): a run of at most 253 bytes, none of them the delimiter, and none at all
while no code byte is owed. -/
def Codec.encoderInv (c : Codec) : Prop :=
  c.encRun.length ≤ 253 ∧ c.encD ∉ c.encRun ∧ (c.encOpen = false → c.encRun = [])

/-- The decoder registers of a context (rule R27): the bytes left of a run are fewer than its code byte says, and a stopped
decoder has read the code byte 0. -/
def Codec.decoderInv (c : Codec) : Prop :=
  c.decBlock.toNat ≤ c.decCode.toNat - 1 ∧ (c.decStop = true → c.decCode = 0)

/-- The reader (rules R32 and R33): `|rx_payload| <= rx_len`, the payload incomplete in phase `Payload` and complete in the
phases after it. -/
def State.readerInv (s : State) : Prop :=
  s.rxPayload.length ≤ s.rxLen.toNat ∧
  (s.rxPhase = .payload → s.rxPayload.length < s.rxLen.toNat) ∧
  (s.rxPhase = .ck0 ∨ s.rxPhase = .ck1 ∨ s.rxPhase = .ready → s.rxPayload.length = s.rxLen.toNat)

/-- A light (rules R45, R256 and R265): the period is not negative, the count does not pass its target, and the pin shows
the phase while blinking, and the state otherwise, once the state was entered. -/
def Light.inv (l : Light) : Prop :=
  0 ≤ l.blinkPeriod.toInt ∧
  l.blinkToggleCount.toNat ≤ l.blinkTargetCount.toNat ∧
  (l.stateChanged = false →
    match l.state with
    | .on => l.out = true
    | .off => l.out = false
    | .blink => l.blinkValue = l.out
    | .blinkCount => l.blinkValue = l.out)

/-- The invariant of the block's state. -/
def State.Inv (s : State) : Prop :=
  s.cfg.ok ∧
  s.ctxH.encoderInv ∧ s.ctxH.decoderInv ∧ s.ctxL.encoderInv ∧ s.ctxL.decoderInv ∧
  s.ckSum1.toNat ≤ 254 ∧ s.ckSum2.toNat ≤ 254 ∧
  s.readerInv ∧
  s.dev.length = s.cfg.numDevices ∧
  s.btn.length = s.cfg.numButtons ∧
  s.light.length = s.cfg.numLights ∧
  ∀ l ∈ s.light, l.inv

/-! ### Operations and instances -/

/-- The operations that compute or read and change no state of the block (rules R52, R69 and R131). -/
def readOnly : Instr → Bool
  | .enc .. | .dec .. | .maxenc _ | .cksum _ | .checkbytes _ | .verify _ | .ckRead | .ckCheckbytes
  | .txSerialize .. | .pktCkstat | .devGet _ | .busChanid .. | .btnIsClick _ | .btnIsSingleClick _
  | .btnIsDoubleClick _ | .btnIsLongClick _ | .btnIsReleased _ | .btnState _ | .lightOut _ => true
  | _ => false

/-- The rows that name the error code of a response. -/
def errorRows : List Instr :=
  [.eSuccess, .eInvalidPacketType, .eInvalidFunction, .eInsufficientParams, .eInvalidDevice, .eUnknown]

/-- The rows of the transition table of rule R221: from `st`, with sample `p` and elapsed time `e`, to `st'`. -/
def gestureRow (c : Config) (st : GestureState) (p : Bool) (e : Int) (st' : GestureState) : Prop :=
  (st = .idle ∧ p = true ∧ st' = .debounce) ∨
  (st = .debounce ∧ p = false ∧ st' = .idle) ∨
  (st = .debounce ∧ p = true ∧ e ≥ c.debounceUs ∧ st' = .pressed) ∨
  (st = .pressed ∧ p = false ∧ st' = .clickUp) ∨
  (st = .pressed ∧ p = true ∧ e ≥ c.longClickUs ∧ st' = .longClick) ∨
  (st = .clickUp ∧ st' = .clickIdle) ∨
  (st = .clickIdle ∧ p = true ∧ st' = .doubleClickDebounce) ∨
  (st = .clickIdle ∧ p = false ∧ e ≥ c.singleClickUs ∧ st' = .singleClick) ∨
  (st = .doubleClickDebounce ∧ p = false ∧ st' = .clickIdle) ∨
  (st = .doubleClickDebounce ∧ p = true ∧ e ≥ c.debounceUs ∧ st' = .doubleClick) ∨
  (st = .doubleClick ∧ p = false ∧ st' = .otherUp) ∨
  (st = .longClick ∧ p = false ∧ st' = .otherUp) ∨
  (st = .singleClick ∧ st' = .idle) ∨
  (st = .otherUp ∧ st' = .idle)

/-! ### Packets -/

/-- `s` with a whole packet held, as the reader leaves it (rule R166). -/
def State.holding (s : State) (pid ty : Byte) (payload : Bytes) (ck0 ck1 : Byte) : State :=
  { s with
    rxPhase := .ready
    rxPid := pid
    rxType := ty
    rxLen := BitVec.ofNat 8 payload.length
    rxPayload := payload
    rxCk0 := ck0
    rxCk1 := ck1 }

/-- The received checksum value of the held packet (rule R86). -/
def State.receivedCksum (s : State) : BitVec 16 :=
  match s.cfg.cksumOrder with
  | .loFirst => s.rxCk1 ++ s.rxCk0
  | .hiFirst => s.rxCk0 ++ s.rxCk1

/-- The received checksum is the one computed over `[type, len] ++ payload` (rule R169). -/
abbrev State.cksumMatches (s : State) : Prop := s.receivedCksum = fletcher16 (s.rxType :: s.rxLen :: s.rxPayload)

/-- A packet is held and is not one that rule R171 or R172 drops. -/
abbrev State.accepts (s : State) : Prop :=
  s.rxPhase = .ready ∧ s.rxLen.toNat ≤ 253 ∧ (s.cfg.checksumStrict = true → s.cksumMatches)

/-- What every dispatch leaves: the checksum stored, the verdict, the reader in `Scan` (rule R170), and no value returned. -/
def State.afterDispatch (s : State) : State :=
  { s with
    pktCksum := s.receivedCksum
    pktCksumOk := decide s.cksumMatches
    rxPhase := .scan
    ret := .none }

/-- The two `TX` entries of a response to the held packet with payload `p` (rules R95 and R182). -/
def State.responseEvents (s : State) (p : Bytes) : List TxEvent :=
  [.write (linkFrame s.cfg (serialize s.cfg s.rxPid s.cfg.tResponse p)), .flush]

/-- The held packet was answered with the payload `p` and no callback was called. -/
def State.answered (s : State) (p : Bytes) : State :=
  { s.afterDispatch with tx := s.tx ++ s.responseEvents p }

/-- The link stands between two packets: the reader scans, and in mode `stuffed` the receiver's context is as a frame
boundary leaves it (rules R128 and R162). -/
abbrev State.betweenPackets (s : State) : Prop :=
  s.rxPhase = .scan ∧
  (s.cfg.linkMode = .stuffed →
    s.cfg.linkDelim = 0 ∧ s.ctxL.decD = 0 ∧ s.ctxL.decCode = 0xFF ∧ s.ctxL.decBlock = 0 ∧ s.ctxL.decStop = false)

/-- What `cbAnswers` holds next is the byte `e`, or nothing and `e` is the free byte of the next draw (log entry 5). -/
abbrev State.nextCbByte (s : State) : Byte := s.cbAnswers.headD (Config.freeByte s.drawCount)

end Sys2Proof.Machine
end

