-- ==== Sys2Proof/Certificates/Slice0/Obligations.lean ====
section
/-! DEFINITION. The statements for the provers. Each docstring names the rules of spec/ it formalises; where a rule is one
the spec marks as its own decision or inference, the docstring says so with the decision's number. -/

open Sys2Proof Sys2Proof.Machine

/-! ### Words and steps -/

/-- Decode and encode agree: every well-formed instruction, under every configuration of this hardware, is what the decoder
reads from its word. The operation codes are rule R96's (decision D39), the wire formats rules R82, R84, R87 and R88's, the
operand layout the model's own choice (log entry 4). -/
def Obligations.DecodeInvertsEncode : Prop :=
  ∀ c : Config, c.ok → ∀ i : Instr, WellFormed c i = true → decode c (encode c i) = some i

/-- Words written out from the spec's encodings decode to the operation they stand for: one of each unit and one of each wire
format (rules R82, R87, R88, R91 and R96; the operand layout is log entry 4). -/
def Obligations.WrittenWordsDecode : Prop :=
  decode Config.default ⟨.opsel, [0x07, 0x33]⟩ = some (.unstuffByte 0x33) ∧
  decode Config.default ⟨.opsel, [0x24, 0x5A]⟩ = some (.ckByte 0x5A) ∧
  decode Config.default ⟨.opsel, [0x45, 0x4E]⟩ = some (.linkRxbyte 0x4E) ∧
  decode Config.default ⟨.opsel, [0x61, 0x01, 0, 0, 0, 0x55]⟩ = some (.busSendControl 1 0x55) ∧
  decode Config.default ⟨.opsel, [0x82, 0x02, 0, 0, 0]⟩ = some (.btnIsSingleClick 2) ∧
  decode Config.default ⟨.opsel, [0xA1, 0x03, 0, 0, 0, 0x01]⟩ = some (.lightSet 3 true) ∧
  decode Config.default ⟨.envelope, [0x4E, 0x07, 0x03, 0x00, 0x03, 0x06]⟩ = some (.pktPing 0x07 [] 0x03 0x06) ∧
  decode Config.default ⟨.errorCode, [0x03]⟩ = some .eInsufficientParams ∧
  decode Config.default ⟨.channel, [0x02, 0x02, 0, 0, 0x01, 0, 0, 0, 0x7F]⟩ = some (.chStatus 1 [0x7F]) ∧
  decode Config.default ⟨.stuffCode, [0xFF]⟩ = some .codeFullrun ∧
  decode Config.default ⟨.start, [0x4E]⟩ = some .start

/-- The forty operation-select codes and no others: unit `u` has 9, 7, 6, 4, 7, 7, 0 and 0 operations for `u` = 0 to 7
(rule R96, decision D39); every other value is refused as not an operation (rule R98), and each of the forty begins some
word. -/
def Obligations.OnlyFortyOpselsAreOperations : Prop :=
  (∀ (s : State) (op : Byte) (operands : Bytes) (rest : List Offer),
    s.cfg.ok → s.offers = ⟨.opsel, op :: operands⟩ :: rest →
    [9, 7, 6, 4, 7, 7, 0, 0].getD (op.toNat / 32) 0 ≤ op.toNat % 32 →
    step s = .refused .notAnOperation) ∧
  (∀ (c : Config) (op : Byte), op.toNat % 32 < [9, 7, 6, 4, 7, 7, 0, 0].getD (op.toNat / 32) 0 →
    ∃ operands i, decode c ⟨.opsel, op :: operands⟩ = some i)

/-- A step runs the decoded instruction: where the word offered next decodes to `i`, and `i` need not wait for a held packet,
the step is `exec` of `i` with the word taken off the offers (rules R70 and R296; offers are log entry 1). -/
def Obligations.StepRunsOfferedOperation : Prop :=
  ∀ (s : State) (o : Offer) (rest : List Offer) (i : Instr),
    s.cfg.ok → s.offers = o :: rest → decode s.cfg o = some i → ¬ waits i s →
    step s = exec i { s with offers := rest }

/-- Backpressure: while a packet is held, an offered transport operation waits where it is, the step is the dispatch, and
the reader scans again after it (rules R170 and R308, decision D43; offers are log entry 1). So do the other operations of
PKT but the dispatch, `TX.SERIALIZE` and `PKT.CKSTAT` (rules R32 and R101; that they wait is log entry 23). -/
def Obligations.TransportByteWaitsForDispatch : Prop :=
  ∀ (s : State) (o : Offer) (rest : List Offer) (i : Instr),
    s.cfg.ok → s.offers = o :: rest → decode s.cfg o = some i → s.rxPhase = .ready →
    (portOf i = .transportRx ∨ i = .pktCkstat ∨ ∃ pid ty p, i = .txSerialize pid ty p) →
    ∃ t, step s = .next t ∧ exec .pktDispatch s = .next t ∧ t.offers = s.offers ∧ t.rxPhase = .scan

/-- With nothing offered the dispatcher still dispatches a held packet, and otherwise the block is idle; a configuration that
breaks rule R7, or a range of rule R6, has no step (rules R7 and R296; that the ranges of rule R6 are constraints is log
entry 20, offers are log entry 1, the idle step is the model's choice, log entry 13). -/
def Obligations.StepsWithNothingOffered : Prop :=
  ∀ s : State,
    (¬ s.cfg.ok → step s = .refused .badConfiguration) ∧
    (s.cfg.ok → s.offers = [] → s.rxPhase ≠ .ready → step s = .next s) ∧
    (s.cfg.ok → s.offers = [] → s.rxPhase = .ready →
      ∃ t, step s = .next t ∧ exec .pktDispatch s = .next t ∧ t.rxPhase = .scan)

/-! ### Invariants and rules of the whole machine -/

/-- Every step keeps the invariant of the state: the encoder and decoder registers (rules R25 and R27), the checksum
accumulators at most 254 (rule R30), the reader's payload against its length (rule R33), one record per device, button and
light (rules R37, R40 and R45), the lights (rules R256 and R265), a legal configuration (rule R7, and the ranges of rule R6: log
entry 20). -/
def Obligations.StepKeepsInvariant : Prop :=
  ∀ s t : State, s.Inv → step s = .next t → t.Inv

/-- The state after reset meets the invariant, under every configuration of this hardware. -/
def Obligations.ResetMeetsInvariant : Prop :=
  (∀ c : Config, c.ok → (State.resetWith c).Inv) ∧ State.reset.Inv

/-- Reset puts every element at the value of rule R301's table. The values are the spec's own choice (decisions D27, D29 and
D37), the configuration is log entry 2's. -/
def Obligations.ResetValues : Prop :=
  State.reset = State.resetWith Config.default ∧
  ∀ c : Config, ∃ s, s = State.resetWith c ∧ s.cfg = c ∧
    s.ctxH = ⟨0x00, [], true, 0x00, 0xFF, 0, false⟩ ∧ s.ctxL = ⟨0x00, [], true, c.linkDelim, 0xFF, 0, false⟩ ∧
    s.ckSum1 = 0 ∧ s.ckSum2 = 0 ∧ s.rxPhase = .scan ∧
    s.rxPid = 0 ∧ s.rxType = 0 ∧ s.rxLen = 0 ∧ s.rxCk0 = 0 ∧ s.rxCk1 = 0 ∧ s.rxPayload = [] ∧
    s.pktCksum = 0 ∧ s.pktCksumOk = true ∧ s.pktDropped = 0 ∧
    (∀ k < c.numDevices, s.dev[k]? = some ⟨0, 0, 0, 0, 0⟩) ∧
    (∀ n < c.numButtons, s.btn[n]? = some ⟨.idle, 0, false⟩) ∧
    (∀ j < c.numLights, s.light[j]? = some ⟨.off, false, 0, 0, 0, 0, false, false⟩) ∧
    s.tx = [] ∧ s.busTx = [] ∧ s.route = [] ∧ s.cb = []

/-- No operation changes the configuration or the operations still offered: the parameters are constant after reset
(rules R6, R20 and R75); what is still offered is the model's own field (log entry 1). -/
def Obligations.ConfigurationIsConstant : Prop :=
  ∀ (i : Instr) (s t : State), exec i s = .next t → t.cfg = s.cfg ∧ t.offers = s.offers

/-- A device record changes only by a five-byte message on that device's status channel, which replaces all five bytes
(rules R37, R202 and R204). -/
def Obligations.OnlyStatusMessagesWriteDevices : Prop :=
  ∀ (i : Instr) (s t : State), s.cfg.ok → exec i s = .next t → t.dev ≠ s.dev →
    ∃ k b0 b1 b2 b3 b4,
      (i = .chStatus k [b0, b1, b2, b3, b4] ∨
        ∃ base, s.cfg.baseIds[k]? = some base ∧ i = .busRecv (base + 2) [b0, b1, b2, b3, b4]) ∧
      t.dev = s.dev.set k ⟨b0, b1, b2, b3, b4⟩

/-- Each piece of state has one writing port (rules R68 and R20): the bus for the device records, the tick for the buttons,
the tick and the application for the lights, the transport for the receive registers and context `L`, the host for
context `H` and the accumulators; the reader's phase and the packet registers are written by the transport and the
dispatcher. -/
def Obligations.EachRegisterHasOneWritingPort : Prop :=
  ∀ (i : Instr) (s t : State), exec i s = .next t →
    (t.dev ≠ s.dev → portOf i = .busRx) ∧
    (t.btn ≠ s.btn → portOf i = .tick) ∧
    (t.light ≠ s.light → portOf i = .tick ∨ portOf i = .app) ∧
    (t.rxPid ≠ s.rxPid ∨ t.rxType ≠ s.rxType ∨ t.rxLen ≠ s.rxLen ∨ t.rxPayload ≠ s.rxPayload ∨
      t.rxCk0 ≠ s.rxCk0 ∨ t.rxCk1 ≠ s.rxCk1 ∨ t.ctxL ≠ s.ctxL → portOf i = .transportRx) ∧
    (t.rxPhase ≠ s.rxPhase ∨ t.pktCksum ≠ s.pktCksum ∨ t.pktCksumOk ≠ s.pktCksumOk ∨ t.pktDropped ≠ s.pktDropped →
      portOf i = .transportRx ∨ portOf i = .internal) ∧
    (t.ctxH ≠ s.ctxH ∨ t.ckSum1 ≠ s.ckSum1 ∨ t.ckSum2 ≠ s.ckSum2 → portOf i = .host)

/-- The block never emits an unsolicited envelope: whatever an operation appends to `TX` is a sequence of responses, each one
write of an envelope of type `T_RESPONSE` with 1 to 253 payload bytes and one flush, and only taking transport bytes or
dispatching appends any (rules R73, R182 and R187). -/
def Obligations.OnlyResponsesAreTransmitted : Prop :=
  ∀ (i : Instr) (s t : State), s.cfg.ok → exec i s = .next t →
    ∃ rs : List (Byte × Bytes),
      t.tx = s.tx ++ rs.flatMap (fun r =>
        [.write (linkFrame s.cfg (serialize s.cfg r.1 s.cfg.tResponse r.2)), .flush]) ∧
      (∀ r ∈ rs, 1 ≤ r.2.length ∧ r.2.length ≤ 253) ∧
      (rs ≠ [] → portOf i = .transportRx ∨ portOf i = .internal)

/-- The four logs are append-only (rule R53), and each has its one source: `TX` and `CB` the dispatch, by `PKT.DISPATCH` or
an error-code row or within a packet row that crosses the link (those rows are log entry 3); `BUSTX` the control send alone,
with at most one message each (rule R210); `ROUTE` the received messages. The single operations that take transport bytes
append to no log. -/
def Obligations.LogsAreAppendOnly : Prop :=
  ∀ (i : Instr) (s t : State), exec i s = .next t →
    s.tx <+: t.tx ∧ s.busTx <+: t.busTx ∧ s.route <+: t.route ∧ s.cb <+: t.cb ∧
    (t.busTx ≠ s.busTx → ∃ k value base, i = .busSendControl k value ∧ s.cfg.baseIds[k]? = some base ∧
      t.busTx = s.busTx ++ [⟨base + 1, [value]⟩]) ∧
    (t.route ≠ s.route ↔ portOf i = .busRx) ∧
    (t.tx ≠ s.tx ∨ t.cb ≠ s.cb → i = .pktDispatch ∨ i ∈ errorRows ∨
      ∃ ty pid p ck0 ck1, i = .pktIdentify pid p ck0 ck1 ∨ i = .pktStatus pid p ck0 ck1 ∨
        i = .pktCommand pid p ck0 ck1 ∨ i = .pktPing pid p ck0 ck1 ∨ i = .pktResponse pid p ck0 ck1 ∨
        i = .pktUnknown ty pid p ck0 ck1)

/-- The pure functions and the queries change nothing: no register, no log, no flag (rules R52, R69 and R131). -/
def Obligations.ReadsHaveNoSideEffect : Prop :=
  ∀ (i : Instr) (s t : State), readOnly i = true → exec i s = .next t → ∃ r, t = { s with ret := r }

/-- What the invocations of rule R98 and of spec/93_implementation_defined.md (cases I1, I18 to I20, I24, I26, I29 and I31)
are refused for; the wire rows likewise, as the model reads them (log
entry 3). That `RX.FRAME_END` is not enabled in `Ready` is the model's reading (log entry 11);
`TX.SERIALIZE` and `PKT.CKSTAT` are not enabled there by rules R32 and R101 (log entry 23). -/
def Obligations.BrokenPreconditionsAreRefused : Prop :=
  ∀ s : State,
    (∀ input d, s.cfg.maxBuf < input.length →
      exec (.enc input d) s = .refused .bufferTooLong ∧ exec (.dec input d) s = .refused .bufferTooLong ∧
      exec (.cksum input) s = .refused .bufferTooLong ∧ exec (.verify input) s = .refused .bufferTooLong) ∧
    (∀ input d, s.cfg.maxBuf < (enc input d).length → exec (.enc input d) s = .refused .bufferTooLong) ∧
    (∀ input, s.cfg.maxBuf < input.length + 2 → exec (.checkbytes input) s = .refused .bufferTooLong) ∧
    (∀ pid ty payload, 253 < payload.length → exec (.txSerialize pid ty payload) s = .refused .payloadTooLong) ∧
    (s.cfg.linkMode = .raw →
      (∀ b, exec (.linkRxbyte b) s = .refused .wrongLinkMode) ∧ exec .rxFrameEnd s = .refused .wrongLinkMode) ∧
    (s.cfg.linkMode = .stuffed →
      (∀ b, exec (.rxByte b) s = .refused .wrongLinkMode) ∧ exec .start s = .refused .wrongLinkMode) ∧
    (s.cfg.linkMode = .raw → s.rxPhase = .ready →
      (∀ b, exec (.rxByte b) s = .refused .notEnabled) ∧ exec .start s = .refused .notEnabled) ∧
    (s.cfg.linkMode = .stuffed → s.rxPhase = .ready →
      (∀ b, exec (.linkRxbyte b) s = .refused .notEnabled) ∧ exec .rxFrameEnd s = .refused .notEnabled) ∧
    (s.rxPhase = .ready → exec .pktCkstat s = .refused .notEnabled ∧
      ∀ pid ty payload, payload.length ≤ 253 → exec (.txSerialize pid ty payload) s = .refused .notEnabled) ∧
    (∀ ty pid payload ck0 ck1, ∀ i ∈ [Instr.pktIdentify pid payload ck0 ck1, .pktStatus pid payload ck0 ck1,
        .pktCommand pid payload ck0 ck1, .pktPing pid payload ck0 ck1, .pktResponse pid payload ck0 ck1,
        .pktUnknown ty pid payload ck0 ck1],
      (255 < payload.length → exec i s = .refused .payloadTooLong) ∧
      (payload.length ≤ 255 → s.rxPhase = .ready → exec i s = .refused .notEnabled)) ∧
    (s.rxPhase ≠ .ready → ∀ i ∈ Instr.pktDispatch :: errorRows, exec i s = .refused .notEnabled) ∧
    (∀ id payload, s.cfg.busMaxPayload < payload.length →
      exec (.busRecv id payload) s = .refused .busPayloadTooLong) ∧
    (∀ k payload, ∀ i ∈ [Instr.chComm k payload, .chControl k payload, .chStatus k payload, .chMisc k payload],
      (s.cfg.numDevices ≤ k → exec i s = .refused .noSuchDevice) ∧
      (k < s.cfg.numDevices → s.cfg.busMaxPayload < payload.length → exec i s = .refused .busPayloadTooLong)) ∧
    (∀ k ch, 3 < ch → exec (.busChanid k ch) s = .refused .noSuchChannel) ∧
    (∀ n p now, s.btn.length ≤ n →
      ∀ i ∈ [Instr.btnTick n p now, .btnIsClick n, .btnIsSingleClick n, .btnIsDoubleClick n, .btnIsLongClick n,
        .btnIsReleased n, .btnState n], exec i s = .refused .noSuchButton) ∧
    (∀ j now v period n, s.light.length ≤ j →
      ∀ i ∈ [Instr.lightUpdate j now, .lightSet j v, .lightToggle j, .lightBlink j period, .lightBlinkToggle j period,
        .lightBlinkCount j period n, .lightOut j], exec i s = .refused .noSuchLight) ∧
    (∀ j period n, j < s.light.length → period.toInt < 0 →
      ∀ i ∈ [Instr.lightBlink j period, .lightBlinkToggle j period, .lightBlinkCount j period n],
        exec i s = .refused .negativePeriod)

/-! ### CODEC -/

/-- Round trip: every buffer decodes, with its delimiter, to what was encoded; both operations complete with the codec's
value wherever the buffers fit `MAX_BUF` and change nothing; the converse fails, as for the sequence `[00]` (rule R121). -/
def Obligations.DecodeInvertsStuffing : Prop :=
  (∀ (b : Bytes) (d : Byte), dec (enc b d) d = b) ∧
  (∀ (s : State) (b : Bytes) (d : Byte), b.length ≤ s.cfg.maxBuf →
    exec (.dec b d) s = .next { s with ret := .bytes (dec b d) }) ∧
  (∀ (s : State) (b : Bytes) (d : Byte), b.length ≤ s.cfg.maxBuf → (enc b d).length ≤ s.cfg.maxBuf →
    exec (.enc b d) s = .next { s with ret := .bytes (enc b d) } ∧
    exec (.dec (enc b d) d) s = .next { s with ret := .bytes b }) ∧
  (∀ d : Byte, dec [0x00] d = [] ∧ enc [] d = [0x01])

/-- The encoder cuts its input into runs at a delimiter and at the 254th byte and nowhere else: what it emits for the first
run, and that the rest is encoded as if it stood alone (rules R81, R87 and R111). -/
def Obligations.EncoderCutsRuns : Prop :=
  ∀ (d : Byte) (run rest : Bytes), d ∉ run →
    (run.length ≤ 253 → enc run d = BitVec.ofNat 8 (run.length + 1) :: run) ∧
    (run.length ≤ 253 → enc (run ++ d :: rest) d = BitVec.ofNat 8 (run.length + 1) :: run ++ enc rest d) ∧
    (run.length = 254 → enc run d = 0xFF :: run) ∧
    (run.length = 254 → rest ≠ [] → enc (run ++ rest) d = 0xFF :: run ++ enc rest d)

/-- The encoded form is bounded and, with delimiter `0x00`, free of its delimiter: `MAXENC` returns the document's formula,
`|ENC in, d| <= max(1, MAXENC |in|)`, and no byte of a frame encoded with delimiter `0x00` is `0x00` (rules R115 and R130,
whose bound and claim are inferences of the spec's). -/
def Obligations.EncodedFormIsBoundedAndDelimiterFree : Prop :=
  (∀ (n : Nat) (s : State), exec (.maxenc n) s = .next { s with ret := .nat (n + (n + 253) / 254) }) ∧
  (∀ (b : Bytes) (d : Byte), (enc b d).length ≤ max 1 (b.length + (b.length + 253) / 254)) ∧
  (∀ b : Bytes, (0x00 : Byte) ∉ enc b 0x00)

/-- The decoder degrades gracefully: a frame cut short decodes to the beginning of what the whole decodes to, and one cut
inside its first or its second run to all that was copied (rule R118), a code byte `0x00` stops it (rule R119, decision D5), a data byte equal to the delimiter is copied (rule R120), and the output is never longer than the
input (rule R116). -/
def Obligations.DecoderDegradesGracefully : Prop :=
  (∀ (f g : Bytes) (d : Byte), dec f d <+: dec (f ++ g) d) ∧
  (∀ (b rest : Bytes) (d : Byte), dec (enc b d ++ 0x00 :: rest) d = b) ∧
  (∀ (n : Nat) (data : Bytes) (d : Byte), data.length ≤ n → n ≤ 254 →
    dec (BitVec.ofNat 8 (n + 1) :: data) d = data ∧
    ∀ run : Bytes,
      (run.length ≤ 253 →
        dec (BitVec.ofNat 8 (run.length + 1) :: run ++ BitVec.ofNat 8 (n + 1) :: data) d = run ++ d :: data) ∧
      (run.length = 254 → dec (0xFF :: run ++ BitVec.ofNat 8 (n + 1) :: data) d = run ++ data)) ∧
  (∀ (f : Bytes) (d : Byte), (dec f d).length ≤ f.length)

/-- The byte-serial framer agrees with `ENC`, from every state and on every input (rule R125, an inference of the spec's). -/
def Obligations.FramerAgreesWithEnc : Prop :=
  ∀ (s : State) (b : Bytes) (d : Byte),
    returnedBytes (.stuffBegin d :: (stuffBytes b ++ [.stuffEnd])) s = some (enc b d)

/-- The byte-serial unstuffer agrees with `DEC`, from every state and on every input (rule R129, an inference of the
spec's). -/
def Obligations.UnstufferAgreesWithDec : Prop :=
  ∀ (s : State) (f : Bytes) (d : Byte),
    returnedBytes (.unstuffBegin d :: unstuffBytes f) s = some (dec f d)

/-- What each framer operation does to context `H` and returns; nothing else changes (rules R122 to R124, decision D6). -/
def Obligations.FramerOperations : Prop :=
  ∀ s : State,
    (∀ d, exec (.stuffBegin d) s =
      .next { s with ctxH := { s.ctxH with encD := d, encRun := [], encOpen := true }, ret := .none }) ∧
    (exec (.stuffByte s.ctxH.encD) s =
      .next { s with
        ctxH := { s.ctxH with encRun := [], encOpen := true }
        ret := .bytes (BitVec.ofNat 8 (s.ctxH.encRun.length + 1) :: s.ctxH.encRun) }) ∧
    (∀ b, b ≠ s.ctxH.encD → s.ctxH.encRun.length ≠ 253 → exec (.stuffByte b) s =
      .next { s with ctxH := { s.ctxH with encRun := s.ctxH.encRun ++ [b], encOpen := true }, ret := .bytes [] }) ∧
    (∀ b, b ≠ s.ctxH.encD → s.ctxH.encRun.length = 253 → exec (.stuffByte b) s =
      .next { s with
        ctxH := { s.ctxH with encRun := [], encOpen := false }
        ret := .bytes (0xFF :: s.ctxH.encRun ++ [b]) }) ∧
    (s.ctxH.encOpen = true → exec .stuffEnd s =
      .next { s with
        ctxH := { s.ctxH with encRun := [], encOpen := true }
        ret := .bytes (BitVec.ofNat 8 (s.ctxH.encRun.length + 1) :: s.ctxH.encRun) }) ∧
    (s.ctxH.encOpen = false → exec .stuffEnd s =
      .next { s with ctxH := { s.ctxH with encRun := [], encOpen := true }, ret := .bytes [] })

/-- What each unstuffer operation does to context `H` and returns, and what the rows that name a code byte do where a code
byte is due; nothing else changes (rules R117, R119 and R126 to R128, decisions D5 and D6; the rows are log entry 3). -/
def Obligations.UnstufferOperations : Prop :=
  ∀ s : State,
    (∀ d, exec (.unstuffBegin d) s =
      .next { s with
        ctxH := { s.ctxH with decD := d, decCode := 0xFF, decBlock := 0, decStop := false }, ret := .none }) ∧
    (∀ b, s.ctxH.decStop = true → exec (.unstuffByte b) s = .next { s with ret := .bytes [] }) ∧
    (∀ b, s.ctxH.decStop = false → s.ctxH.decBlock ≠ 0 → exec (.unstuffByte b) s =
      .next { s with ctxH := { s.ctxH with decBlock := s.ctxH.decBlock - 1 }, ret := .bytes [b] }) ∧
    (s.ctxH.decStop = false → s.ctxH.decBlock = 0 →
      exec .codeStop s =
        .next { s with ctxH := { s.ctxH with decCode := 0, decStop := true }, ret := .bytes [] } ∧
      exec .codeFullrun s =
        .next { s with
          ctxH := { s.ctxH with decCode := 0xFF, decBlock := 254 }
          ret := .bytes (if s.ctxH.decCode = 0xFF then [] else [s.ctxH.decD]) } ∧
      (∀ c, c ≠ 0x00 → c ≠ 0xFF → exec (.codeRun c) s =
        .next { s with
          ctxH := { s.ctxH with decCode := c, decBlock := c - 1 }
          ret := .bytes (if s.ctxH.decCode = 0xFF then [] else [s.ctxH.decD]) })) ∧
    (exec .codeStop s = exec (.unstuffByte 0x00) s ∧ exec .codeFullrun s = exec (.unstuffByte 0xFF) s ∧
      ∀ c, exec (.codeRun c) s = exec (.unstuffByte c) s) ∧
    (exec .unstuffEnd s =
      .next { s with
        ctxH := { s.ctxH with decCode := 0xFF, decBlock := 0, decStop := false }
        ret := .bool (decide (s.ctxH.decBlock = 0 ∧ s.ctxH.decStop = false)) })

/-! ### CKSUM -/

/-- What each byte-serial checksum operation does to the accumulators and returns (rules R150 to R153; the algorithm is
decision D8, the check bytes decision D9). -/
def Obligations.ChecksumOperations : Prop :=
  ∀ s : State,
    exec .ckReset s = .next { s with ckSum1 := 0, ckSum2 := 0, ret := .none } ∧
    (∀ b, exec (.ckByte b) s =
      .next { s with
        ckSum1 := BitVec.ofNat 8 ((s.ckSum1.toNat + b.toNat) % 255)
        ckSum2 := BitVec.ofNat 8 ((s.ckSum2.toNat + (s.ckSum1.toNat + b.toNat) % 255) % 255)
        ret := .none }) ∧
    exec .ckRead s = .next { s with ret := .u16 (BitVec.ofNat 16 (256 * s.ckSum2.toNat + s.ckSum1.toNat)) } ∧
    (∃ a b : Byte, exec .ckCheckbytes s = .next { s with ret := .pair a b } ∧
      a.toNat = 255 - (s.ckSum1.toNat + s.ckSum2.toNat) % 255 ∧ b.toNat = 255 - (s.ckSum1.toNat + a.toNat) % 255)

/-- The checksum of a buffer in closed form: `sum1` is the sum of the bytes and `sum2` the sum of the bytes weighted by
their distance from the end, each modulo 255, and the value is `(sum2 << 8) | sum1`; `VERIFY` returns whether both are zero
(rules R62, R141 and R146; the algorithm is decision D8, the verifier decision D9). -/
def Obligations.ChecksumIsWeightedSum : Prop :=
  ∀ (s : State) (input : Bytes), input.length ≤ s.cfg.maxBuf →
    exec (.cksum input) s = .next { s with
      ret := .u16 (BitVec.ofNat 16
        (256 * ((input.zipIdx.map fun x => (input.length - x.2) * x.1.toNat).sum % 255) +
          (input.map BitVec.toNat).sum % 255)) } ∧
    exec (.verify input) s = .next { s with
      ret := .bool (decide ((input.zipIdx.map fun x => (input.length - x.2) * x.1.toNat).sum % 255 = 0 ∧
        (input.map BitVec.toNat).sum % 255 = 0)) }

/-- The rolling form agrees with the buffer form: after `CK.RESET` and one `CK.BYTE` per byte, `CK.READ` returns what `CKSUM`
returns; and the byte-serial check bytes bring the accumulators, whatever they hold, to a zero checksum (rules R152 and
R153, inferences of the spec's). -/
def Obligations.RollingChecksumAgrees : Prop :=
  (∀ (s : State) (input : Bytes), input.length ≤ s.cfg.maxBuf →
    ∃ t v, runOps (.ckReset :: ckBytes input) s = .next t ∧
      exec .ckRead t = .next { t with ret := .u16 v } ∧ exec (.cksum input) s = .next { s with ret := .u16 v }) ∧
  (∀ s : State, ∃ (a b : Byte) (t : State), exec .ckCheckbytes s = .next { s with ret := .pair a b } ∧
    runOps [.ckByte a, .ckByte b] s = .next t ∧ exec .ckRead t = .next { t with ret := .u16 0x0000 })

/-- The check bytes do what they are for: they are in 1..255, and the buffer with them appended verifies (rules R144 to R146;
the formula is decision D9). -/
def Obligations.CheckBytesVerify : Prop :=
  ∀ (s : State) (input : Bytes), input.length + 2 ≤ s.cfg.maxBuf →
    ∃ a b : Byte, a ≠ 0 ∧ b ≠ 0 ∧ exec (.checkbytes input) s = .next { s with ret := .pair a b } ∧
      exec (.verify (input ++ [a, b])) s = .next { s with ret := .bool true }

/-- The verifier detects the change of any one byte, unless the change is between `0x00` and `0xFF` (rule R146, an inference
of the spec's; decision D9). -/
def Obligations.VerifyDetectsOneByteChange : Prop :=
  ∀ (s : State) (before after : Bytes) (x y : Byte),
    before.length + after.length < s.cfg.maxBuf → x ≠ y → ¬ (x = 0x00 ∧ y = 0xFF) → ¬ (x = 0xFF ∧ y = 0x00) →
    exec (.verify (before ++ x :: after)) s = .next { s with ret := .bool true } →
    exec (.verify (before ++ y :: after)) s = .next { s with ret := .bool false }

/-- Swapping two bytes leaves the checksum unchanged exactly when their distance times their difference is a multiple of 255
(rule R143, whose formula is an inference of the spec's). -/
def Obligations.ChecksumIsOrderSensitive : Prop :=
  ∀ (before middle after : Bytes) (x y : Byte),
    fletcher16 (before ++ x :: middle ++ y :: after) = fletcher16 (before ++ y :: middle ++ x :: after) ↔
      (255 : Int) ∣ (middle.length + 1 : Int) * ((y.toNat : Int) - x.toNat)

/-! ### PKT: the reader -/

/-- The reader takes one byte as its phase says, in link mode `raw`: it discards all but `START` while it scans, and inside
an envelope it stores the byte in the field of the phase without comparing it with `START`; nothing else changes (rules
R164 and R166). The `START` row is the byte 0x4E reaching the reader, which is the model's reading of that row (log entry
3). -/
def Obligations.ReaderTakesByteByPhase : Prop :=
  ∀ s : State, s.cfg.linkMode = .raw →
    (s.rxPhase = .scan → exec .start s = .next { s with rxPhase := .pid, ret := .none }) ∧
    exec .start s = exec (.rxByte 0x4E) s ∧
    (s.rxPhase = .scan → exec (.rxByte 0x4E) s = .next { s with rxPhase := .pid, ret := .none }) ∧
    (∀ b, s.rxPhase = .scan → b ≠ 0x4E → exec (.rxByte b) s = .next { s with ret := .none }) ∧
    (∀ b, s.rxPhase = .pid → exec (.rxByte b) s = .next { s with rxPid := b, rxPhase := .type, ret := .none }) ∧
    (∀ b, s.rxPhase = .type → exec (.rxByte b) s = .next { s with rxType := b, rxPhase := .len, ret := .none }) ∧
    (s.rxPhase = .len → exec (.rxByte 0) s =
      .next { s with rxLen := 0, rxPayload := [], rxPhase := .ck0, ret := .none }) ∧
    (∀ b, s.rxPhase = .len → b ≠ 0 → exec (.rxByte b) s =
      .next { s with rxLen := b, rxPayload := [], rxPhase := .payload, ret := .none }) ∧
    (∀ b, s.rxPhase = .payload → s.rxPayload.length + 1 ≠ s.rxLen.toNat → exec (.rxByte b) s =
      .next { s with rxPayload := s.rxPayload ++ [b], ret := .none }) ∧
    (∀ b, s.rxPhase = .payload → s.rxPayload.length + 1 = s.rxLen.toNat → exec (.rxByte b) s =
      .next { s with rxPayload := s.rxPayload ++ [b], rxPhase := .ck0, ret := .none }) ∧
    (∀ b, s.rxPhase = .ck0 → exec (.rxByte b) s = .next { s with rxCk0 := b, rxPhase := .ck1, ret := .none }) ∧
    (∀ b, s.rxPhase = .ck1 → exec (.rxByte b) s = .next { s with rxCk1 := b, rxPhase := .ready, ret := .none })

/-- The reader takes a whole envelope: from `Scan`, the bytes of any envelope, whatever they are and for every `len` of 0 to
255, are taken as its fields and no other byte, and the reader then holds it; in link mode `raw` the bytes come one per
`RX.BYTE`, and in mode `stuffed` the unstuffer hands them to the same reader (rule R165). -/
def Obligations.ReaderTakesWholeEnvelope : Prop :=
  ∀ (s : State) (pid ty ck0 ck1 : Byte) (payload : Bytes), s.rxPhase = .scan → payload.length ≤ 255 →
    ([0x4E, pid, ty, BitVec.ofNat 8 payload.length] ++ payload ++ [ck0, ck1]).foldl State.readerByte s =
      s.holding pid ty payload ck0 ck1 ∧
    (s.cfg.linkMode = .raw →
      runOps (([0x4E, pid, ty, BitVec.ofNat 8 payload.length] ++ payload ++ [ck0, ck1]).map .rxByte) s =
        .next { s.holding pid ty payload ck0 ck1 with ret := .none })

/-- Between two packets, a packet row is the arrival of its envelope in either link mode: its outcome is the dispatch of the
packet held with exactly its fields, and the link stands between packets again. In mode `stuffed` this goes through the
framer, the unstuffer and the frame boundary (rules R95, R160, R161, R165 and R167; decision D11; log entry 3). -/
def Obligations.PacketRowsCrossEitherLink : Prop :=
  ∀ (s : State) (pid ck0 ck1 : Byte) (payload : Bytes), s.betweenPackets → payload.length ≤ 255 →
    ∀ (i : Instr) (ty : Byte),
      (i = .pktIdentify pid payload ck0 ck1 ∧ ty = s.cfg.tIdentify ∨
        i = .pktStatus pid payload ck0 ck1 ∧ ty = s.cfg.tStatus ∨
        i = .pktCommand pid payload ck0 ck1 ∧ ty = s.cfg.tCommand ∨
        i = .pktPing pid payload ck0 ck1 ∧ ty = s.cfg.tPing ∨
        i = .pktResponse pid payload ck0 ck1 ∧ ty = s.cfg.tResponse ∨
        i = .pktUnknown ty pid payload ck0 ck1) →
      ∃ t, exec i s = .next t ∧ exec .pktDispatch (s.holding pid ty payload ck0 ck1) = .next t ∧ t.betweenPackets

/-- A packet row is the bytes of its envelope as the link carries them, from every state in which no packet is held: in mode
`raw` `RX.BYTES` of the envelope, in mode `stuffed` `LINK.RXBYTES` of its encoded form and the delimiter, and it always
completes with no packet held (rules R95, R101 and R160; log entry 3). -/
def Obligations.PacketRowsAreTheirBytes : Prop :=
  ∀ (s : State) (pid ck0 ck1 : Byte) (payload : Bytes), s.rxPhase ≠ .ready → payload.length ≤ 255 →
    ∀ (i : Instr) (ty : Byte),
      (i = .pktIdentify pid payload ck0 ck1 ∧ ty = s.cfg.tIdentify ∨
        i = .pktStatus pid payload ck0 ck1 ∧ ty = s.cfg.tStatus ∨
        i = .pktCommand pid payload ck0 ck1 ∧ ty = s.cfg.tCommand ∨
        i = .pktPing pid payload ck0 ck1 ∧ ty = s.cfg.tPing ∨
        i = .pktResponse pid payload ck0 ck1 ∧ ty = s.cfg.tResponse ∨
        i = .pktUnknown ty pid payload ck0 ck1) →
      (∃ t, exec i s = .next t ∧ t.rxPhase ≠ .ready) ∧
      (s.cfg.linkMode = .raw → exec i s = rxBytes (envelopeBytes pid ty payload ck0 ck1) s) ∧
      (s.cfg.linkMode = .stuffed →
        exec i s = linkRxBytes (enc (envelopeBytes pid ty payload ck0 ck1) s.cfg.linkDelim ++ [s.cfg.linkDelim]) s)

/-- What a byte of a stuffed link and a frame boundary do (rules R161 and R167, decision D11): a boundary abandons a partial
envelope and counts it; any other byte goes through the unstuffer, and what that releases through the reader. That `RX.FRAME_END` runs when it is
offered by itself is the model's reading (log entry 11). -/
def Obligations.StuffedLinkOperations : Prop :=
  ∀ s : State, s.cfg.linkMode = .stuffed → s.rxPhase ≠ .ready →
    (s.rxPhase = .scan → exec .rxFrameEnd s = .next { s with ret := .none }) ∧
    (s.rxPhase ≠ .scan → exec .rxFrameEnd s =
      .next { s with rxPhase := .scan, pktDropped := s.pktDropped + 1, ret := .none }) ∧
    (exec (.linkRxbyte s.cfg.linkDelim) s =
      .next { s with
        ctxL := { s.ctxL with decCode := 0xFF, decBlock := 0, decStop := false }
        rxPhase := .scan
        pktDropped := if s.rxPhase = .scan then s.pktDropped else s.pktDropped + 1
        ret := .none }) ∧
    (∀ b, b ≠ s.cfg.linkDelim → s.ctxL.decStop = true → exec (.linkRxbyte b) s = .next { s with ret := .none }) ∧
    (∀ b, b ≠ s.cfg.linkDelim → s.ctxL.decStop = false → s.ctxL.decBlock ≠ 0 → exec (.linkRxbyte b) s =
      .next { State.readerByte { s with ctxL := { s.ctxL with decBlock := s.ctxL.decBlock - 1 } } b with
        ret := .none }) ∧
    (∀ b, b ≠ s.cfg.linkDelim → b ≠ 0 → s.ctxL.decStop = false → s.ctxL.decBlock = 0 → s.ctxL.decCode = 0xFF →
      exec (.linkRxbyte b) s =
        .next { s with ctxL := { s.ctxL with decCode := b, decBlock := b - 1 }, ret := .none }) ∧
    (∀ b, b ≠ s.cfg.linkDelim → b ≠ 0 → s.ctxL.decStop = false → s.ctxL.decBlock = 0 → s.ctxL.decCode ≠ 0xFF →
      exec (.linkRxbyte b) s =
        .next { State.readerByte { s with ctxL := { s.ctxL with decCode := b, decBlock := b - 1 } } s.ctxL.decD with
          ret := .none })

/-! ### PKT: the dispatcher -/

/-- Ping: empty success, by `PKT.DISPATCH` and by the row of that code (rules R180 and R182; the row is log entry 3). -/
def Obligations.PingIsAnsweredWithSuccess : Prop :=
  ∀ s : State, s.cfg.ok → s.accepts → s.rxType = s.cfg.tPing →
    exec .pktDispatch s = .next (s.answered [s.cfg.eSuccess]) ∧
    exec .eSuccess s = .next (s.answered [s.cfg.eSuccess])

/-- Identify is answered with the version, the handler count and the name, and calls nothing (rules R93 and R173, decision
D18). Status calls `get_status` once and is answered with the `STATUS_SIZE` bytes it gave: those the environment has placed,
and free ones beyond them (rules R94 and R174, decision D19; log entry 5). Both are cases of the `E_SUCCESS` row
(log entry 3). -/
def Obligations.IdentifyAndStatusAreAnswered : Prop :=
  ∀ s : State, s.cfg.ok → s.accepts →
    (s.rxType = s.cfg.tIdentify →
      ∀ t, t = s.answered
          ([s.cfg.eSuccess] ++ s.cfg.identVersion ++ [BitVec.ofNat 8 s.cfg.minParams.length] ++ s.cfg.identName) →
        exec .pktDispatch s = .next t ∧ exec .eSuccess s = .next t) ∧
    (s.rxType = s.cfg.tStatus →
      ∃ (buf : Bytes) (t : State), buf.length = s.cfg.statusSize ∧
        (∀ m < s.cfg.statusSize, m < s.cbAnswers.length → buf[m]? = s.cbAnswers[m]?) ∧
        t = { s.answered (s.cfg.eSuccess :: buf) with
          cb := s.cb ++ [.getStatus buf]
          cbAnswers := s.cbAnswers.drop s.cfg.statusSize
          drawCount := s.drawCount + s.cfg.statusSize } ∧
        exec .pktDispatch s = .next t ∧ exec .eSuccess s = .next t)

/-- A Command whose index is `NUM_CMDS` or more, the sentinel slot included, is answered `InvalidFunction`, and no handler is
called (rules R177 and R182); the row of that code does the same (log entry 3). -/
def Obligations.CommandIndexOutOfRangeIsAnswered : Prop :=
  ∀ (s : State) (idx : Byte) (params : Bytes), s.cfg.ok → s.accepts → s.rxType = s.cfg.tCommand →
    s.rxLen ≠ 0 → s.rxPayload = idx :: params → s.cfg.numCmds ≤ idx.toNat →
    exec .pktDispatch s = .next (s.answered [s.cfg.eInvalidFunction]) ∧
    exec .eInvalidFunction s = .next (s.answered [s.cfg.eInvalidFunction])

/-- A Command is checked and then calls its handler: with no index byte it is answered `InvalidFunction` (rule R176, decision
D17); in range with too few parameters, `InsufficientFunctionParameters` without a call; otherwise the handler is called
once with all parameter bytes and its answer is the whole response payload (rules R175, R178 and R281, decision D20). The
answer is the byte the environment placed next, or a free one (log entry 5); the rows of the codes only a handler answers
run exactly that (log entry 3). -/
def Obligations.CommandIsCheckedAndCalled : Prop :=
  ∀ s : State, s.cfg.ok → s.accepts → s.rxType = s.cfg.tCommand →
    (s.rxLen = 0 →
      exec .pktDispatch s = .next (s.answered [s.cfg.eInvalidFunction]) ∧
      exec .eInvalidFunction s = .next (s.answered [s.cfg.eInvalidFunction])) ∧
    (∀ (idx : Byte) (params : Bytes) (m : Nat),
      s.rxLen ≠ 0 → s.rxPayload = idx :: params → s.cfg.minParams[idx.toNat]? = some m →
      (params.length < m →
        exec .pktDispatch s = .next (s.answered [s.cfg.eInsufficientParams]) ∧
        exec .eInsufficientParams s = .next (s.answered [s.cfg.eInsufficientParams])) ∧
      (m ≤ params.length → ∀ t,
        t = { s.answered [s.nextCbByte] with
          cb := s.cb ++ [.command idx params s.nextCbByte]
          cbAnswers := s.cbAnswers.drop 1
          drawCount := s.drawCount + 1 } →
        exec .pktDispatch s = .next t ∧
        (s.nextCbByte = s.cfg.eSuccess → exec .eSuccess s = .next t) ∧
        (s.nextCbByte = s.cfg.eInvalidDevice → exec .eInvalidDevice s = .next t) ∧
        (s.nextCbByte = s.cfg.eUnknown → exec .eUnknown s = .next t)))

/-- Every type byte that is none of the four request codes, `T_RESPONSE` included, is answered `InvalidPacketType` (rule R179,
decision D21); the row of that code does the same (log entry 3). -/
def Obligations.UnknownTypeIsAnswered : Prop :=
  ∀ s : State, s.cfg.ok → s.accepts →
    s.rxType ≠ s.cfg.tIdentify → s.rxType ≠ s.cfg.tStatus → s.rxType ≠ s.cfg.tCommand → s.rxType ≠ s.cfg.tPing →
    exec .pktDispatch s = .next (s.answered [s.cfg.eInvalidPacketType]) ∧
    exec .eInvalidPacketType s = .next (s.answered [s.cfg.eInvalidPacketType])

/-- A held packet over 253 bytes, or with a wrong checksum under strictness, is dropped: counted, no callback, no response
(rules R171 and R172, decisions D12 and D16); no error-code row runs on it (log entry 3). -/
def Obligations.BadPacketsAreDropped : Prop :=
  ∀ s : State, s.rxPhase = .ready →
    (253 < s.rxLen.toNat ∨ (s.cfg.checksumStrict = true ∧ ¬ s.cksumMatches)) →
    exec .pktDispatch s = .next { s.afterDispatch with pktDropped := s.pktDropped + 1 } ∧
    ∀ i ∈ errorRows, exec i s = .refused .otherAnswer

/-- The response-code rows are cases of the dispatch: where one runs, it does what `PKT.DISPATCH` does, the response carries
its code, and no other of them runs (rules R84, R91, R170 and R281; log entry 3). -/
def Obligations.ErrorRowsAreDispatchCases : Prop :=
  ∀ (s t : State) (i : Instr), s.cfg.ok → i ∈ errorRows → exec i s = .next t →
    exec .pktDispatch s = .next t ∧
    (∃ data, t.tx = s.tx ++ s.responseEvents ((encode s.cfg i).bytes ++ data)) ∧
    ∀ j ∈ errorRows, j ≠ i → exec j s = .refused .otherAnswer

/-- `TX.SERIALIZE` returns the envelope with its correct checksum and emits nothing, and the envelope decodes to the packet it
was made of: where the five type codes are distinct, the row of its type, with its `pid`, its payload and the two check bytes
(rules R82, R86, R90, R182 and R183, decisions D10 and D43). It runs in every phase but `Ready` (rule R32, log entry 23); the
format an offered word names is log entry 4. -/
def Obligations.SerializeBuildsEnvelope : Prop :=
  ∀ (s : State) (pid ty : Byte) (p : Bytes), s.rxPhase ≠ .ready → p.length ≤ 253 →
    ∃ lo hi ck0 ck1 : Byte,
      hi ++ lo = fletcher16 (ty :: BitVec.ofNat 8 p.length :: p) ∧
      (s.cfg.cksumOrder = .loFirst → ck0 = lo ∧ ck1 = hi) ∧
      (s.cfg.cksumOrder = .hiFirst → ck0 = hi ∧ ck1 = lo) ∧
      exec (.txSerialize pid ty p) s =
        .next { s with ret := .bytes ([0x4E, pid, ty, BitVec.ofNat 8 p.length] ++ p ++ [ck0, ck1]) } ∧
      ∃ i, decode s.cfg ⟨.envelope, [0x4E, pid, ty, BitVec.ofNat 8 p.length] ++ p ++ [ck0, ck1]⟩ = some i ∧
        (s.cfg.typeCodes.Nodup →
          (ty = s.cfg.tIdentify → i = .pktIdentify pid p ck0 ck1) ∧
          (ty = s.cfg.tStatus → i = .pktStatus pid p ck0 ck1) ∧
          (ty = s.cfg.tCommand → i = .pktCommand pid p ck0 ck1) ∧
          (ty = s.cfg.tPing → i = .pktPing pid p ck0 ck1) ∧
          (ty = s.cfg.tResponse → i = .pktResponse pid p ck0 ck1) ∧
          (ty ∉ s.cfg.typeCodes → i = .pktUnknown ty pid p ck0 ck1))

/-- Every envelope the serializer builds is one the reader accepts as correct: carried over either link between two packets,
it leaves `pkt_cksum_ok` set, and no packet is dropped (rules R169 and R182). That a packet row carries
an envelope of any type byte over the link is the model's reading (log entry 3). -/
def Obligations.SerializedPacketsVerify : Prop :=
  ∀ (s : State) (pid ty : Byte) (p : Bytes), s.cfg.ok → s.betweenPackets → p.length ≤ 253 →
    ∃ (ck0 ck1 : Byte) (t : State),
      exec (.txSerialize pid ty p) s = .next { s with ret := .bytes (envelopeBytes pid ty p ck0 ck1) } ∧
      exec (.pktUnknown ty pid p ck0 ck1) s = .next t ∧ t.pktCksumOk = true ∧ t.pktDropped = s.pktDropped

/-! ### BUS -/

/-- A status message of the expected length updates the record positionally; one of any other length changes no byte of it,
is no error, and only its `ROUTE` event, with `updated` false, reports it; nothing but the record and the `ROUTE` log changes
(rule R204). -/
def Obligations.StatusMessageUpdatesRecord : Prop :=
  ∀ (s : State) (k : Nat) (base : BitVec 32), s.cfg.ok → s.cfg.baseIds[k]? = some base →
    (∀ b0 b1 b2 b3 b4 : Byte, 5 ≤ s.cfg.busMaxPayload →
      ∃ r, exec (.busRecv (base + 2) [b0, b1, b2, b3, b4]) s =
        .next { s with dev := s.dev.set k ⟨b0, b1, b2, b3, b4⟩, route := r, ret := .none }) ∧
    (∀ payload : Bytes, payload.length ≤ s.cfg.busMaxPayload → payload.length ≠ 5 →
      ∃ r, exec (.busRecv (base + 2) payload) s = .next { s with route := r, ret := .none } ∧
        r.getLast?.map (·.updated) = some false)

/-- Every received message is routed once, after any update of a record: one on a comm, control or misc channel, on a status
channel with a length other than five, or on an id of no device changes nothing else (rules R204 and R205, decision D24). The
channel rows are the receptions of their messages, which is the model's reading of those rows (log entry 3). -/
def Obligations.EveryMessageIsRoutedOnce : Prop :=
  ∀ (s : State) (payload : Bytes), s.cfg.ok → payload.length ≤ s.cfg.busMaxPayload →
    (∀ (k : Nat) (base : BitVec 32), s.cfg.baseIds[k]? = some base →
      (∀ (i : Instr) (id : BitVec 32) (ch : Channel),
        ((i = .busRecv id payload ∨ i = .chComm k payload) ∧ id = base ∧ ch = .comm ∨
          (i = .busRecv id payload ∨ i = .chControl k payload) ∧ id = base + 1 ∧ ch = .control ∨
          (i = .busRecv id payload ∨ i = .chStatus k payload) ∧ id = base + 2 ∧ ch = .status ∧ payload.length ≠ 5 ∨
          (i = .busRecv id payload ∨ i = .chMisc k payload) ∧ id = base + 3 ∧ ch = .misc) →
        exec i s = .next { s with route := s.route ++ [⟨id, payload, some (k, ch), false⟩], ret := .none }) ∧
      (∀ (i : Instr) (b0 b1 b2 b3 b4 : Byte), payload = [b0, b1, b2, b3, b4] →
        (i = .busRecv (base + 2) payload ∨ i = .chStatus k payload) →
        exec i s = .next { s with
          dev := s.dev.set k ⟨b0, b1, b2, b3, b4⟩
          route := s.route ++ [⟨base + 2, payload, some (k, .status), true⟩]
          ret := .none })) ∧
    (∀ id : BitVec 32, (∀ base ∈ s.cfg.baseIds, ¬ (base.toNat ≤ id.toNat ∧ id.toNat ≤ base.toNat + 3)) →
      exec (.busRecv id payload) s =
        .next { s with route := s.route ++ [⟨id, payload, none, false⟩], ret := .none })

/-- Sending a control value transmits one byte on the device's control id, writes no state of the block, and returns the bus's
answer: the one the environment placed, or a free one (rule R206, decision D25; log entry 5). -/
def Obligations.SendControlTransmitsOneByte : Prop :=
  ∀ (s : State) (k : Nat) (value : Byte) (base : BitVec 32), s.cfg.baseIds[k]? = some base →
    ∃ a : BusAnswer, (∀ a' rest, s.busAnswers = a' :: rest → a = a') ∧
      exec (.busSendControl k value) s = .next { s with
        busTx := s.busTx ++ [⟨base + 1, [value]⟩]
        busAnswers := s.busAnswers.tail
        drawCount := s.drawCount + 1
        ret := .busAnswer a }

/-- `DEV.GET` returns the five bytes of the record and changes nothing, and answers `InvalidDevice` for an index out of range
(rule R208); a status message is read back whole, never in part (rule R66). -/
def Obligations.DevGetReadsWholeRecord : Prop :=
  ∀ (s : State) (k : Nat), s.cfg.ok → s.dev.length = s.cfg.numDevices →
    (s.cfg.numDevices ≤ k → exec (.devGet k) s = .next { s with ret := .err s.cfg.eInvalidDevice }) ∧
    (k < s.cfg.numDevices → ∃ d, s.dev[k]? = some d ∧ exec (.devGet k) s = .next { s with ret := .device d }) ∧
    (∀ (base : BitVec 32) (b0 b1 b2 b3 b4 : Byte) (t : State), s.cfg.baseIds[k]? = some base →
      exec (.busRecv (base + 2) [b0, b1, b2, b3, b4]) s = .next t →
      exec (.devGet k) t = .next { t with ret := .device ⟨b0, b1, b2, b3, b4⟩ })

/-- Every operation that names a device by an index out of range returns `InvalidDevice`, emits nothing and changes nothing
(rule R207, decision D25). -/
def Obligations.DeviceIndexOutOfRangeIsReturned : Prop :=
  ∀ (s : State) (k ch : Nat) (value : Byte), s.dev.length = s.cfg.numDevices → s.cfg.numDevices ≤ k → ch ≤ 3 →
    exec (.busSendControl k value) s = .next { s with ret := .err s.cfg.eInvalidDevice } ∧
    exec (.devGet k) s = .next { s with ret := .err s.cfg.eInvalidDevice } ∧
    exec (.busChanid k ch) s = .next { s with ret := .err s.cfg.eInvalidDevice }

/-- `BUS.CHANID` returns the sum of base id and channel, free of overflow, and no two (device, channel) pairs have one id
(rules R88, R201 and R209, decision D23). -/
def Obligations.ChannelIdsAreSumsAndDistinct : Prop :=
  ∀ (s : State) (k ch : Nat), s.cfg.ok → k < s.cfg.numDevices → ch ≤ 3 →
    ∃ (base id : BitVec 32), s.cfg.baseIds[k]? = some base ∧ id.toNat = base.toNat + ch ∧
      exec (.busChanid k ch) s = .next { s with ret := .u32 id } ∧
      ∀ k' ch', k' < s.cfg.numDevices → ch' ≤ 3 →
        exec (.busChanid k' ch') s = .next { s with ret := .u32 id } → k' = k ∧ ch' = ch

/-! ### BTN -/

/-- The transition table: a tick makes the transition the table lists for the state, the sample and the elapsed time, records
the tick's timestamp and sets `fresh`; in every case not listed the state does not change and `fresh` is cleared. No other
instance and nothing else changes (rules R221 and R223, decision D31). The elapsed time is `elapsed now last`. -/
def Obligations.ButtonTickFollowsTable : Prop :=
  ∀ (s : State) (n : Nat) (b : Button) (p : Bool) (now : BitVec 64), s.btn[n]? = some b →
    (∀ st', gestureRow s.cfg b.state p (elapsed now b.lastTransitionTime) st' →
      exec (.btnTick n p now) s =
        .next { s with btn := s.btn.set n ⟨st', now, true⟩, ret := .none }) ∧
    ((∀ st', ¬ gestureRow s.cfg b.state p (elapsed now b.lastTransitionTime) st') →
      exec (.btnTick n p now) s =
        .next { s with btn := s.btn.set n { b with fresh := false }, ret := .none })

/-- The elapsed time is the signed 64-bit difference of the timestamps: the exact difference wherever that is one of 64 bits,
which the premise of rule R302 gives (and it is then not negative), and otherwise, as the model reads the subtraction,
2^64 away from it (log entry 6). A negative one meets no threshold, so that only the transitions the sample drives remain,
for either sample; and it exceeds no period that is not negative, so that a blinking light holds its phase (rules R224, R265
and R302, decisions D28 and D32). The premise of rule R302 on the operations of a run holds of the state after reset, every
operation and every step leave it to hold of the operations still to come (those offered are log entry 1), and under it every
tick and every update measures the exact difference from the stored time, which is not negative. -/
def Obligations.ElapsedIsSignedDifference : Prop :=
  (∀ now last : BitVec 64,
    (-(2 ^ 63) ≤ now.toInt - last.toInt → now.toInt - last.toInt < 2 ^ 63 →
      elapsed now last = now.toInt - last.toInt) ∧
    (2 ^ 63 ≤ now.toInt - last.toInt → elapsed now last = now.toInt - last.toInt - 2 ^ 64) ∧
    (now.toInt - last.toInt < -(2 ^ 63) → elapsed now last = now.toInt - last.toInt + 2 ^ 64) ∧
    (timesPremise [last, now] →
      elapsed now last = now.toInt - last.toInt ∧ 0 ≤ elapsed now last) ∧
    (∀ (c : Config) (st st' : GestureState) (e : Int), e < 0 →
      (gestureRow c st true e st' ↔
        st = .idle ∧ st' = .debounce ∨ st = .clickUp ∧ st' = .clickIdle ∨
        st = .clickIdle ∧ st' = .doubleClickDebounce ∨ st = .singleClick ∧ st' = .idle ∨
        st = .otherUp ∧ st' = .idle) ∧
      (gestureRow c st false e st' ↔
        st = .debounce ∧ st' = .idle ∨ st = .pressed ∧ st' = .clickUp ∨ st = .clickUp ∧ st' = .clickIdle ∨
        st = .doubleClickDebounce ∧ st' = .clickIdle ∨ st = .doubleClick ∧ st' = .otherUp ∨
        st = .longClick ∧ st' = .otherUp ∨ st = .singleClick ∧ st' = .idle ∨ st = .otherUp ∧ st' = .idle)) ∧
    (∀ (s : State) (j : Nat) (l : Light), s.light[j]? = some l → l.stateChanged = false →
      (l.state = .blink ∨ l.state = .blinkCount ∧ l.blinkToggleCount.toNat < l.blinkTargetCount.toNat) →
      l.lastTime = last → 0 ≤ l.blinkPeriod.toInt → elapsed now last < 0 →
      l.phaseOver now = false ∧ exec (.lightUpdate j now) s = .next { s with ret := .none })) ∧
  (∀ (c : Config) (ops : List Instr), timestampPremise ops → (State.resetWith c).timestampPremise ops) ∧
  (∀ (s t : State) (i : Instr) (ops : List Instr), s.timestampPremise (i :: ops) → exec i s = .next t →
    t.timestampPremise ops ∧
    (∀ (n : Nat) (p : Bool) (now : BitVec 64) (b : Button), i = .btnTick n p now → s.btn[n]? = some b →
      elapsed now b.lastTransitionTime = now.toInt - b.lastTransitionTime.toInt ∧
      0 ≤ elapsed now b.lastTransitionTime) ∧
    (∀ (j : Nat) (now : BitVec 64) (l : Light), i = .lightUpdate j now → s.light[j]? = some l →
      elapsed now l.lastTime = now.toInt - l.lastTime.toInt ∧ 0 ≤ elapsed now l.lastTime)) ∧
  (∀ s t : State, s.timestampPremise s.offeredOps → step s = .next t → t.timestampPremise t.offeredOps)

/-- The five predicates and the state read are pure reads of `state` and `fresh`, each true only in the tick the state was
entered (rules R226 to R232; `is_released` on `OtherUp` is decision D30, the state read decision D43). -/
def Obligations.PredicatesReadFreshEntry : Prop :=
  ∀ (s : State) (n : Nat) (b : Button), s.btn[n]? = some b →
    exec (.btnIsClick n) s =
      .next { s with ret := .bool (decide (b.fresh = true ∧ (b.state = .pressed ∨ b.state = .doubleClick))) } ∧
    exec (.btnIsSingleClick n) s =
      .next { s with ret := .bool (decide (b.fresh = true ∧ b.state = .singleClick)) } ∧
    exec (.btnIsDoubleClick n) s =
      .next { s with ret := .bool (decide (b.fresh = true ∧ b.state = .doubleClick)) } ∧
    exec (.btnIsLongClick n) s =
      .next { s with ret := .bool (decide (b.fresh = true ∧ b.state = .longClick)) } ∧
    exec (.btnIsReleased n) s =
      .next { s with ret := .bool (decide (b.fresh = true ∧
        (b.state = .clickUp ∨ (s.cfg.releasedOnOtherUp = true ∧ b.state = .otherUp)))) } ∧
    exec (.btnState n) s = .next { s with ret := .gesture b.state b.fresh }

/-- A gesture event happens only on its one edge: after a tick, a predicate is true only if that tick made the transition into
its state from where the table enters it, so a click from `Debounce` or `DoubleClickDebounce`, a single click from
`ClickIdle`, a long click from `Pressed`, a release from `Pressed`, `DoubleClick` or `LongClick` (rules R226 and R234, the
latter an inference of the spec's). -/
def Obligations.GestureEventsNeedTheirEdge : Prop :=
  ∀ (s t : State) (n : Nat) (b b' : Button) (p : Bool) (now : BitVec 64),
    s.btn[n]? = some b → exec (.btnTick n p now) s = .next t → t.btn[n]? = some b' →
    (b'.isClick = true → p = true ∧ (b.state = .debounce ∨ b.state = .doubleClickDebounce)) ∧
    (b'.isSingleClick = true → p = false ∧ b.state = .clickIdle) ∧
    (b'.isDoubleClick = true → p = true ∧ b.state = .doubleClickDebounce) ∧
    (b'.isLongClick = true → p = true ∧ b.state = .pressed) ∧
    (b'.isReleased s.cfg = true →
      p = false ∧ (b.state = .pressed ∨ b.state = .doubleClick ∨ b.state = .longClick))

/-- A press shorter than `DEBOUNCE_US` raises nothing: from `Idle`, any number of pressed samples within the debounce time and
then a released one lead through `Debounce` back to `Idle` (rule R234, an inference of the spec's). -/
def Obligations.GlitchRaisesNoEvent : Prop :=
  ∀ (s : State) (n : Nat) (b : Button) (first last : BitVec 64) (held : List (BitVec 64)),
    s.btn[n]? = some b → b.state = .idle →
    (∀ now ∈ held, elapsed now first < s.cfg.debounceUs) →
    (∃ u, runOps ((first :: held).map (.btnTick n true)) s = .next u ∧
      ∃ fresh, u.btn[n]? = some ⟨.debounce, first, fresh⟩) ∧
    (∃ u, runOps ((first :: held).map (.btnTick n true) ++ [.btnTick n false last]) s = .next u ∧
      u.btn[n]? = some ⟨.idle, last, true⟩)

/-! ### LIGHT -/

/-- `LIGHT.SET` records the intent and sets `state_changed`, nothing else; the next update shows it (rule R258). -/
def Obligations.LightSetRecordsIntent : Prop :=
  ∀ (s : State) (j : Nat) (l : Light) (v : Bool) (now : BitVec 64), s.light[j]? = some l →
    exec (.lightSet j v) s = .next { s with
      light := s.light.set j { l with state := if v then .on else .off, stateChanged := true }, ret := .none } ∧
    runOps [.lightSet j v, .lightUpdate j now] s = .next { s with
      light := s.light.set j { l with state := if v then .on else .off, stateChanged := false, out := v }, ret := .none }

/-- The other mutators record their intent, set `state_changed` and move no pin (rule R257, decisions D36 and D38). The toggle
is a three-way switch: `On` gives `Off`, `Off` and a blinking light give `On` (rule R259). The three blinking mutators
record their operands; `BLINK_TOGGLE` on a light in `Blink` turns it off and keeps the period, and a counted blink does not
count as blinking (rules R260 to R263, decisions D35 and D45). -/
def Obligations.LightMutatorsRecordIntent : Prop :=
  ∀ (s : State) (j : Nat) (l : Light), s.light[j]? = some l →
    (l.state = .on → exec (.lightToggle j) s =
      .next { s with light := s.light.set j { l with state := .off, stateChanged := true }, ret := .none }) ∧
    (l.state ≠ .on → exec (.lightToggle j) s =
      .next { s with light := s.light.set j { l with state := .on, stateChanged := true }, ret := .none }) ∧
    ∀ (period : BitVec 64) (n : BitVec 32), 0 ≤ period.toInt →
      exec (.lightBlink j period) s = .next { s with
        light := s.light.set j { l with blinkPeriod := period, state := .blink, stateChanged := true }, ret := .none } ∧
      (l.state = .blink → exec (.lightBlinkToggle j period) s = .next { s with
        light := s.light.set j { l with state := .off, stateChanged := true }, ret := .none }) ∧
      (l.state ≠ .blink → exec (.lightBlinkToggle j period) s = .next { s with
        light := s.light.set j { l with blinkPeriod := period, state := .blink, stateChanged := true }, ret := .none }) ∧
      exec (.lightBlinkCount j period n) s = .next { s with
        light := s.light.set j { l with
          blinkPeriod := period, blinkTargetCount := n, blinkToggleCount := 0, state := .blinkCount, stateChanged := true }
        ret := .none }

/-- The update of a light: the entry tick applies the effect of the state and nothing else (rule R252, decision D33); steady
states do nothing; a blink inverts strictly after its period (rule R253); a counted blink does the same while its count is
below the target, counting the edges from on to off (rule R254). -/
def Obligations.LightUpdateFollowsState : Prop :=
  ∀ (s : State) (j : Nat) (l l' : Light) (now : BitVec 64), s.light[j]? = some l →
    ((l.stateChanged = true ∧ (l.state = .on ∨ l.state = .off) ∧
        l' = { l with stateChanged := false, out := decide (l.state = .on) }) ∨
      (l.stateChanged = true ∧ (l.state = .blink ∨ l.state = .blinkCount) ∧
        l' = { l with stateChanged := false, blinkValue := false, out := false, lastTime := now }) ∨
      (l.stateChanged = false ∧ (l.state = .on ∨ l.state = .off) ∧ l' = l) ∨
      (l.stateChanged = false ∧ l.state = .blink ∧ elapsed now l.lastTime ≤ l.blinkPeriod.toInt ∧ l' = l) ∨
      (l.stateChanged = false ∧ l.state = .blink ∧ elapsed now l.lastTime > l.blinkPeriod.toInt ∧
        l' = { l with blinkValue := !l.blinkValue, out := !l.blinkValue, lastTime := now }) ∨
      (l.stateChanged = false ∧ l.state = .blinkCount ∧ l.blinkToggleCount.toNat < l.blinkTargetCount.toNat ∧
        elapsed now l.lastTime ≤ l.blinkPeriod.toInt ∧ l' = l) ∨
      (l.stateChanged = false ∧ l.state = .blinkCount ∧ l.blinkToggleCount.toNat < l.blinkTargetCount.toNat ∧
        elapsed now l.lastTime > l.blinkPeriod.toInt ∧ l.blinkValue = false ∧
        l' = { l with blinkValue := true, out := true, lastTime := now }) ∨
      (l.stateChanged = false ∧ l.state = .blinkCount ∧ l.blinkToggleCount.toNat < l.blinkTargetCount.toNat ∧
        elapsed now l.lastTime > l.blinkPeriod.toInt ∧ l.blinkValue = true ∧
        l' = { l with
          blinkValue := false, out := false, lastTime := now, blinkToggleCount := l.blinkToggleCount + 1 }) ∨
      (l.stateChanged = false ∧ l.state = .blinkCount ∧ l.blinkTargetCount.toNat ≤ l.blinkToggleCount.toNat ∧
        l' = { l with blinkValue := false, out := false })) →
    exec (.lightUpdate j now) s = .next { s with light := s.light.set j l', ret := .none }

/-- A counted blink of `n` cycles ends off and stays off: after `BLINK_COUNT`, its entry update and `2 n` updates each more
than a period after the one before, the count is `n` and the pin is off, and so it is after any further updates (rules R254,
R255 and R263, decisions D34 and D45). -/
def Obligations.CountedBlinkEndsOff : Prop :=
  ∀ (s : State) (j : Nat) (period t0 : BitVec 64) (n : BitVec 32) (nows later : List (BitVec 64)),
    j < s.light.length → 0 ≤ period.toInt → nows.length = 2 * n.toNat →
    (t0 :: nows).IsChain (fun a b => elapsed b a > period.toInt) →
    ∃ (u : State) (l : Light),
      runOps (.lightBlinkCount j period n :: ((t0 :: nows) ++ later).map (.lightUpdate j)) s = .next u ∧
      u.light[j]? = some l ∧ l.state = .blinkCount ∧ l.blinkToggleCount = n ∧ l.out = false

/-- The two reads that show the pin and the last packet's checksum (rules R184 and R264, decision D43). `PKT.CKSTAT`
runs in every phase but `Ready` (rule R32, log entry 23). -/
def Obligations.PinAndChecksumStatusAreRead : Prop :=
  ∀ s : State,
    (∀ (j : Nat) (l : Light), s.light[j]? = some l → exec (.lightOut j) s = .next { s with ret := .bool l.out }) ∧
    (s.rxPhase ≠ .ready → exec .pktCkstat s = .next { s with ret := .ckstat s.pktCksum s.pktCksumOk s.pktDropped s.rxPhase })
end

