-- ==== Sys2Proof/Laws/Decode.lean ====
section
/-! SUPPORT. The fields of a word: what each reader answers on the bytes that its writer makes, in front of any rest; and
where an id of a device's channel is found in the device table. -/

namespace Sys2Proof

/-- Reading back a number that its bytes can carry. -/
theorem readLE_leBytes (n v : Nat) (rest : Bytes) (h : v < 256 ^ n) :
    readLE n (leBytes n v ++ rest) = some (v, rest) := by
  induction n generalizing v with
  | zero => simp at h; simp [leBytes, readLE, h]
  | succ n ih =>
    have h2 : v / 256 < 256 ^ n := by
      rw [Nat.div_lt_iff_lt_mul (by norm_num), ← pow_succ]
      exact h
    simp only [leBytes, List.cons_append, readLE, ih _ h2, BitVec.toNat_ofNat]
    congr 2
    omega

/-- The number of bytes of a number. -/
@[simp] theorem length_leBytes (n v : Nat) : (leBytes n v).length = n := by
  induction n generalizing v with
  | zero => rfl
  | succ n ih => simp [leBytes, ih]

/-- Reading back a counted byte sequence. -/
theorem readSeq_seqBytes (bs rest : Bytes) (h : bs.length < 2 ^ 32) :
    readSeq (seqBytes bs ++ rest) = some (bs, rest) := by
  simp [readSeq, seqBytes, List.append_assoc, readLE_leBytes 4 bs.length (bs ++ rest) (by simpa using h)]

theorem withByte_cons (b : Byte) (rest : Bytes) (f : Byte → Bytes → Option (Instr × Bytes)) :
    withByte (b :: rest) f = f b rest := rfl

theorem withNum_leBytes (n v : Nat) (rest : Bytes) (f : Nat → Bytes → Option (Instr × Bytes)) (h : v < 256 ^ n) :
    withNum n (leBytes n v ++ rest) f = f v rest := by
  simp only [withNum, readLE_leBytes n v rest h]

theorem withSeq_seqBytes (bs rest : Bytes) (f : Bytes → Bytes → Option (Instr × Bytes)) (h : bs.length < 2 ^ 32) :
    withSeq (seqBytes bs ++ rest) f = f bs rest := by
  simp only [withSeq, readSeq_seqBytes bs rest h]

theorem withBool_boolByte (v : Bool) (rest : Bytes) (f : Bool → Bytes → Option (Instr × Bytes)) :
    withBool (boolByte v :: rest) f = f v rest := by
  cases v <;> rfl

/-- An envelope is read back as its fields. -/
theorem decodeEnvelope_envelopeBytes (c : Config) (pid ty ck0 ck1 : Byte) (payload : Bytes)
    (h : payload.length ≤ 255) :
    decodeEnvelope c (envelopeBytes pid ty payload ck0 ck1) = some (envelopeInstr c ty pid payload ck0 ck1, []) := by
  have e : (BitVec.ofNat 8 payload.length).toNat = payload.length := by
    rw [BitVec.toNat_ofNat]
    exact Nat.mod_eq_of_lt (by omega)
  simp [decodeEnvelope, envelopeBytes, e]

/-- A channel's offset leads back to the channel. -/
@[simp] theorem channelAt_channelOffset (ch : Channel) : channelAt (channelOffset ch) = some ch := by
  cases ch <;> rfl

theorem channelOffset_le (ch : Channel) : channelOffset ch ≤ 3 := by
  cases ch <;> decide

/-- The sum of base id and channel does not overflow where the base id leaves room for four ids (rule R201). -/
theorem channelId_toNat (base : BitVec 32) (ch : Channel) (h : base.toNat ≤ 0xFFFFFFFC) :
    (channelId base ch).toNat = base.toNat + channelOffset ch := by
  have := channelOffset_le ch
  rw [channelId, BitVec.toNat_add, BitVec.toNat_ofNat]
  omega

/-- The search of the device table finds the device that an id of a channel of it belongs to. -/
theorem matchFrom_channelId (bases : List (BitVec 32)) (start k : Nat) (base : BitVec 32) (ch : Channel)
    (hb : ∀ b ∈ bases.map BitVec.toNat, b ≤ 0xFFFFFFFC) (hp : bases.Pairwise basesApart)
    (hk : bases[k]? = some base) :
    matchFrom (channelId base ch) bases start = some (start + k, ch) := by
  induction bases generalizing start k with
  | nil => simp at hk
  | cons b rest ih =>
    have hlt := channelOffset_le ch
    have hbase : base.toNat ≤ 0xFFFFFFFC := hb _ (List.mem_map_of_mem (List.mem_of_getElem? hk))
    have hid := channelId_toNat base ch hbase
    rw [List.pairwise_cons] at hp
    cases k with
    | zero =>
      simp only [List.getElem?_cons_zero, Option.some.injEq] at hk
      subst hk
      unfold matchFrom
      rw [if_pos (by omega), hid, Nat.add_sub_cancel_left, channelAt_channelOffset]
      rfl
    | succ k =>
      simp only [List.getElem?_cons_succ] at hk
      have hap := hp.1 base (List.mem_of_getElem? hk)
      unfold matchFrom
      rw [if_neg (by unfold basesApart at hap; omega),
        ih (start + 1) k (fun x hx => hb x (List.mem_cons_of_mem _ hx)) hp.2 hk]
      congr 2
      omega

/-- `match(id)` finds the device and channel of an id of a channel (rules R201 and R203). -/
theorem matchId_channelId {c : Config} (hc : c.ok) {k : Nat} {base : BitVec 32} (ch : Channel)
    (hk : c.baseIds[k]? = some base) : matchId c (channelId base ch) = some (k, ch) := by
  obtain ⟨_, _, _, _, _, _, _, hb, hp⟩ := hc
  rw [matchId, matchFrom_channelId c.baseIds 0 k base ch hb hp hk, Nat.zero_add]

/-- What `match(id)` answers is a device of the table, and the id is that of the channel of it (rule R203). -/
theorem matchId_eq_some {c : Config} {id : BitVec 32} {k : Nat} {ch : Channel} (h : matchId c id = some (k, ch)) :
    ∃ base, c.baseIds[k]? = some base ∧ id = channelId base ch := by
  have key : ∀ (bases : List (BitVec 32)) (start : Nat), matchFrom id bases start = some (k, ch) →
      ∃ m base, k = start + m ∧ bases[m]? = some base ∧ id = channelId base ch := by
    intro bases
    induction bases with
    | nil => intro start h; simp [matchFrom] at h
    | cons b rest ih =>
      intro start h
      unfold matchFrom at h
      split at h
      · next hin =>
        have hoff : ∃ ch', channelAt (id.toNat - b.toNat) = some ch' ∧ id.toNat - b.toNat = channelOffset ch' := by
          obtain h0 | h0 | h0 | h0 : id.toNat - b.toNat = 0 ∨ id.toNat - b.toNat = 1 ∨ id.toNat - b.toNat = 2 ∨
              id.toNat - b.toNat = 3 := by omega
          · exact ⟨.comm, by simp [h0, channelAt, channelOffset]⟩
          · exact ⟨.control, by simp [h0, channelAt, channelOffset]⟩
          · exact ⟨.status, by simp [h0, channelAt, channelOffset]⟩
          · exact ⟨.misc, by simp [h0, channelAt, channelOffset]⟩
        obtain ⟨ch', h1, h2⟩ := hoff
        simp only [h1, Option.map_some, Option.some.injEq, Prod.mk.injEq] at h
        obtain ⟨rfl, rfl⟩ := h
        refine ⟨0, b, rfl, rfl, BitVec.eq_of_toNat_eq ?_⟩
        rw [channelId, BitVec.toNat_add, BitVec.toNat_ofNat, ← h2]
        have := id.isLt
        omega
      · obtain ⟨m, base, h1, h2, h3⟩ := ih (start + 1) h
        exact ⟨m + 1, base, by omega, h2, h3⟩
  obtain ⟨m, base, rfl, h2, h3⟩ := key c.baseIds 0 h
  exact ⟨base, by simpa using h2, h3⟩

end Sys2Proof
end

