-- ==== Sys2Proof/Laws/State.lean ====
section
/-! SUPPORT. One lemma per field per named update of the state, so that no later proof unfolds a record update. -/

namespace Sys2Proof.Machine

open Sys2Proof

variable (s : State)

/-! ### `setButton` -/

@[simp] theorem setButton_cfg (n : Nat) (b : Button) : (s.setButton n b).cfg = s.cfg := rfl
@[simp] theorem setButton_offers (n : Nat) (b : Button) : (s.setButton n b).offers = s.offers := rfl
@[simp] theorem setButton_ctxH (n : Nat) (b : Button) : (s.setButton n b).ctxH = s.ctxH := rfl
@[simp] theorem setButton_ctxL (n : Nat) (b : Button) : (s.setButton n b).ctxL = s.ctxL := rfl
@[simp] theorem setButton_ckSum1 (n : Nat) (b : Button) : (s.setButton n b).ckSum1 = s.ckSum1 := rfl
@[simp] theorem setButton_ckSum2 (n : Nat) (b : Button) : (s.setButton n b).ckSum2 = s.ckSum2 := rfl
@[simp] theorem setButton_rxPhase (n : Nat) (b : Button) : (s.setButton n b).rxPhase = s.rxPhase := rfl
@[simp] theorem setButton_rxPid (n : Nat) (b : Button) : (s.setButton n b).rxPid = s.rxPid := rfl
@[simp] theorem setButton_rxType (n : Nat) (b : Button) : (s.setButton n b).rxType = s.rxType := rfl
@[simp] theorem setButton_rxLen (n : Nat) (b : Button) : (s.setButton n b).rxLen = s.rxLen := rfl
@[simp] theorem setButton_rxPayload (n : Nat) (b : Button) : (s.setButton n b).rxPayload = s.rxPayload := rfl
@[simp] theorem setButton_rxCk0 (n : Nat) (b : Button) : (s.setButton n b).rxCk0 = s.rxCk0 := rfl
@[simp] theorem setButton_rxCk1 (n : Nat) (b : Button) : (s.setButton n b).rxCk1 = s.rxCk1 := rfl
@[simp] theorem setButton_pktCksum (n : Nat) (b : Button) : (s.setButton n b).pktCksum = s.pktCksum := rfl
@[simp] theorem setButton_pktCksumOk (n : Nat) (b : Button) : (s.setButton n b).pktCksumOk = s.pktCksumOk := rfl
@[simp] theorem setButton_pktDropped (n : Nat) (b : Button) : (s.setButton n b).pktDropped = s.pktDropped := rfl
@[simp] theorem setButton_dev (n : Nat) (b : Button) : (s.setButton n b).dev = s.dev := rfl
@[simp] theorem setButton_btn (n : Nat) (b : Button) : (s.setButton n b).btn = s.btn.set n b := rfl
@[simp] theorem setButton_light (n : Nat) (b : Button) : (s.setButton n b).light = s.light := rfl
@[simp] theorem setButton_tx (n : Nat) (b : Button) : (s.setButton n b).tx = s.tx := rfl
@[simp] theorem setButton_busTx (n : Nat) (b : Button) : (s.setButton n b).busTx = s.busTx := rfl
@[simp] theorem setButton_route (n : Nat) (b : Button) : (s.setButton n b).route = s.route := rfl
@[simp] theorem setButton_cb (n : Nat) (b : Button) : (s.setButton n b).cb = s.cb := rfl
@[simp] theorem setButton_ret (n : Nat) (b : Button) : (s.setButton n b).ret = s.ret := rfl
@[simp] theorem setButton_cbAnswers (n : Nat) (b : Button) : (s.setButton n b).cbAnswers = s.cbAnswers := rfl
@[simp] theorem setButton_busAnswers (n : Nat) (b : Button) : (s.setButton n b).busAnswers = s.busAnswers := rfl
@[simp] theorem setButton_drawCount (n : Nat) (b : Button) : (s.setButton n b).drawCount = s.drawCount := rfl

/-! ### `setLight` -/

@[simp] theorem setLight_cfg (j : Nat) (l : Light) : (s.setLight j l).cfg = s.cfg := rfl
@[simp] theorem setLight_offers (j : Nat) (l : Light) : (s.setLight j l).offers = s.offers := rfl
@[simp] theorem setLight_ctxH (j : Nat) (l : Light) : (s.setLight j l).ctxH = s.ctxH := rfl
@[simp] theorem setLight_ctxL (j : Nat) (l : Light) : (s.setLight j l).ctxL = s.ctxL := rfl
@[simp] theorem setLight_ckSum1 (j : Nat) (l : Light) : (s.setLight j l).ckSum1 = s.ckSum1 := rfl
@[simp] theorem setLight_ckSum2 (j : Nat) (l : Light) : (s.setLight j l).ckSum2 = s.ckSum2 := rfl
@[simp] theorem setLight_rxPhase (j : Nat) (l : Light) : (s.setLight j l).rxPhase = s.rxPhase := rfl
@[simp] theorem setLight_rxPid (j : Nat) (l : Light) : (s.setLight j l).rxPid = s.rxPid := rfl
@[simp] theorem setLight_rxType (j : Nat) (l : Light) : (s.setLight j l).rxType = s.rxType := rfl
@[simp] theorem setLight_rxLen (j : Nat) (l : Light) : (s.setLight j l).rxLen = s.rxLen := rfl
@[simp] theorem setLight_rxPayload (j : Nat) (l : Light) : (s.setLight j l).rxPayload = s.rxPayload := rfl
@[simp] theorem setLight_rxCk0 (j : Nat) (l : Light) : (s.setLight j l).rxCk0 = s.rxCk0 := rfl
@[simp] theorem setLight_rxCk1 (j : Nat) (l : Light) : (s.setLight j l).rxCk1 = s.rxCk1 := rfl
@[simp] theorem setLight_pktCksum (j : Nat) (l : Light) : (s.setLight j l).pktCksum = s.pktCksum := rfl
@[simp] theorem setLight_pktCksumOk (j : Nat) (l : Light) : (s.setLight j l).pktCksumOk = s.pktCksumOk := rfl
@[simp] theorem setLight_pktDropped (j : Nat) (l : Light) : (s.setLight j l).pktDropped = s.pktDropped := rfl
@[simp] theorem setLight_dev (j : Nat) (l : Light) : (s.setLight j l).dev = s.dev := rfl
@[simp] theorem setLight_btn (j : Nat) (l : Light) : (s.setLight j l).btn = s.btn := rfl
@[simp] theorem setLight_light (j : Nat) (l : Light) : (s.setLight j l).light = s.light.set j l := rfl
@[simp] theorem setLight_tx (j : Nat) (l : Light) : (s.setLight j l).tx = s.tx := rfl
@[simp] theorem setLight_busTx (j : Nat) (l : Light) : (s.setLight j l).busTx = s.busTx := rfl
@[simp] theorem setLight_route (j : Nat) (l : Light) : (s.setLight j l).route = s.route := rfl
@[simp] theorem setLight_cb (j : Nat) (l : Light) : (s.setLight j l).cb = s.cb := rfl
@[simp] theorem setLight_ret (j : Nat) (l : Light) : (s.setLight j l).ret = s.ret := rfl
@[simp] theorem setLight_cbAnswers (j : Nat) (l : Light) : (s.setLight j l).cbAnswers = s.cbAnswers := rfl
@[simp] theorem setLight_busAnswers (j : Nat) (l : Light) : (s.setLight j l).busAnswers = s.busAnswers := rfl
@[simp] theorem setLight_drawCount (j : Nat) (l : Light) : (s.setLight j l).drawCount = s.drawCount := rfl

/-! ### `setDevice` -/

@[simp] theorem setDevice_cfg (k : Nat) (d : Device) : (s.setDevice k d).cfg = s.cfg := rfl
@[simp] theorem setDevice_offers (k : Nat) (d : Device) : (s.setDevice k d).offers = s.offers := rfl
@[simp] theorem setDevice_ctxH (k : Nat) (d : Device) : (s.setDevice k d).ctxH = s.ctxH := rfl
@[simp] theorem setDevice_ctxL (k : Nat) (d : Device) : (s.setDevice k d).ctxL = s.ctxL := rfl
@[simp] theorem setDevice_ckSum1 (k : Nat) (d : Device) : (s.setDevice k d).ckSum1 = s.ckSum1 := rfl
@[simp] theorem setDevice_ckSum2 (k : Nat) (d : Device) : (s.setDevice k d).ckSum2 = s.ckSum2 := rfl
@[simp] theorem setDevice_rxPhase (k : Nat) (d : Device) : (s.setDevice k d).rxPhase = s.rxPhase := rfl
@[simp] theorem setDevice_rxPid (k : Nat) (d : Device) : (s.setDevice k d).rxPid = s.rxPid := rfl
@[simp] theorem setDevice_rxType (k : Nat) (d : Device) : (s.setDevice k d).rxType = s.rxType := rfl
@[simp] theorem setDevice_rxLen (k : Nat) (d : Device) : (s.setDevice k d).rxLen = s.rxLen := rfl
@[simp] theorem setDevice_rxPayload (k : Nat) (d : Device) : (s.setDevice k d).rxPayload = s.rxPayload := rfl
@[simp] theorem setDevice_rxCk0 (k : Nat) (d : Device) : (s.setDevice k d).rxCk0 = s.rxCk0 := rfl
@[simp] theorem setDevice_rxCk1 (k : Nat) (d : Device) : (s.setDevice k d).rxCk1 = s.rxCk1 := rfl
@[simp] theorem setDevice_pktCksum (k : Nat) (d : Device) : (s.setDevice k d).pktCksum = s.pktCksum := rfl
@[simp] theorem setDevice_pktCksumOk (k : Nat) (d : Device) : (s.setDevice k d).pktCksumOk = s.pktCksumOk := rfl
@[simp] theorem setDevice_pktDropped (k : Nat) (d : Device) : (s.setDevice k d).pktDropped = s.pktDropped := rfl
@[simp] theorem setDevice_dev (k : Nat) (d : Device) : (s.setDevice k d).dev = s.dev.set k d := rfl
@[simp] theorem setDevice_btn (k : Nat) (d : Device) : (s.setDevice k d).btn = s.btn := rfl
@[simp] theorem setDevice_light (k : Nat) (d : Device) : (s.setDevice k d).light = s.light := rfl
@[simp] theorem setDevice_tx (k : Nat) (d : Device) : (s.setDevice k d).tx = s.tx := rfl
@[simp] theorem setDevice_busTx (k : Nat) (d : Device) : (s.setDevice k d).busTx = s.busTx := rfl
@[simp] theorem setDevice_route (k : Nat) (d : Device) : (s.setDevice k d).route = s.route := rfl
@[simp] theorem setDevice_cb (k : Nat) (d : Device) : (s.setDevice k d).cb = s.cb := rfl
@[simp] theorem setDevice_ret (k : Nat) (d : Device) : (s.setDevice k d).ret = s.ret := rfl
@[simp] theorem setDevice_cbAnswers (k : Nat) (d : Device) : (s.setDevice k d).cbAnswers = s.cbAnswers := rfl
@[simp] theorem setDevice_busAnswers (k : Nat) (d : Device) : (s.setDevice k d).busAnswers = s.busAnswers := rfl
@[simp] theorem setDevice_drawCount (k : Nat) (d : Device) : (s.setDevice k d).drawCount = s.drawCount := rfl

/-! ### `drewBytes` -/

@[simp] theorem drewBytes_cfg (n : Nat) : (s.drewBytes n).cfg = s.cfg := rfl
@[simp] theorem drewBytes_offers (n : Nat) : (s.drewBytes n).offers = s.offers := rfl
@[simp] theorem drewBytes_ctxH (n : Nat) : (s.drewBytes n).ctxH = s.ctxH := rfl
@[simp] theorem drewBytes_ctxL (n : Nat) : (s.drewBytes n).ctxL = s.ctxL := rfl
@[simp] theorem drewBytes_ckSum1 (n : Nat) : (s.drewBytes n).ckSum1 = s.ckSum1 := rfl
@[simp] theorem drewBytes_ckSum2 (n : Nat) : (s.drewBytes n).ckSum2 = s.ckSum2 := rfl
@[simp] theorem drewBytes_rxPhase (n : Nat) : (s.drewBytes n).rxPhase = s.rxPhase := rfl
@[simp] theorem drewBytes_rxPid (n : Nat) : (s.drewBytes n).rxPid = s.rxPid := rfl
@[simp] theorem drewBytes_rxType (n : Nat) : (s.drewBytes n).rxType = s.rxType := rfl
@[simp] theorem drewBytes_rxLen (n : Nat) : (s.drewBytes n).rxLen = s.rxLen := rfl
@[simp] theorem drewBytes_rxPayload (n : Nat) : (s.drewBytes n).rxPayload = s.rxPayload := rfl
@[simp] theorem drewBytes_rxCk0 (n : Nat) : (s.drewBytes n).rxCk0 = s.rxCk0 := rfl
@[simp] theorem drewBytes_rxCk1 (n : Nat) : (s.drewBytes n).rxCk1 = s.rxCk1 := rfl
@[simp] theorem drewBytes_pktCksum (n : Nat) : (s.drewBytes n).pktCksum = s.pktCksum := rfl
@[simp] theorem drewBytes_pktCksumOk (n : Nat) : (s.drewBytes n).pktCksumOk = s.pktCksumOk := rfl
@[simp] theorem drewBytes_pktDropped (n : Nat) : (s.drewBytes n).pktDropped = s.pktDropped := rfl
@[simp] theorem drewBytes_dev (n : Nat) : (s.drewBytes n).dev = s.dev := rfl
@[simp] theorem drewBytes_btn (n : Nat) : (s.drewBytes n).btn = s.btn := rfl
@[simp] theorem drewBytes_light (n : Nat) : (s.drewBytes n).light = s.light := rfl
@[simp] theorem drewBytes_tx (n : Nat) : (s.drewBytes n).tx = s.tx := rfl
@[simp] theorem drewBytes_busTx (n : Nat) : (s.drewBytes n).busTx = s.busTx := rfl
@[simp] theorem drewBytes_route (n : Nat) : (s.drewBytes n).route = s.route := rfl
@[simp] theorem drewBytes_cb (n : Nat) : (s.drewBytes n).cb = s.cb := rfl
@[simp] theorem drewBytes_ret (n : Nat) : (s.drewBytes n).ret = s.ret := rfl
@[simp] theorem drewBytes_cbAnswers (n : Nat) : (s.drewBytes n).cbAnswers = s.cbAnswers.drop n := rfl
@[simp] theorem drewBytes_busAnswers (n : Nat) : (s.drewBytes n).busAnswers = s.busAnswers := rfl
@[simp] theorem drewBytes_drawCount (n : Nat) : (s.drewBytes n).drawCount = s.drawCount + n := rfl

/-! ### `drewBus` -/

@[simp] theorem drewBus_cfg : (s.drewBus).cfg = s.cfg := rfl
@[simp] theorem drewBus_offers : (s.drewBus).offers = s.offers := rfl
@[simp] theorem drewBus_ctxH : (s.drewBus).ctxH = s.ctxH := rfl
@[simp] theorem drewBus_ctxL : (s.drewBus).ctxL = s.ctxL := rfl
@[simp] theorem drewBus_ckSum1 : (s.drewBus).ckSum1 = s.ckSum1 := rfl
@[simp] theorem drewBus_ckSum2 : (s.drewBus).ckSum2 = s.ckSum2 := rfl
@[simp] theorem drewBus_rxPhase : (s.drewBus).rxPhase = s.rxPhase := rfl
@[simp] theorem drewBus_rxPid : (s.drewBus).rxPid = s.rxPid := rfl
@[simp] theorem drewBus_rxType : (s.drewBus).rxType = s.rxType := rfl
@[simp] theorem drewBus_rxLen : (s.drewBus).rxLen = s.rxLen := rfl
@[simp] theorem drewBus_rxPayload : (s.drewBus).rxPayload = s.rxPayload := rfl
@[simp] theorem drewBus_rxCk0 : (s.drewBus).rxCk0 = s.rxCk0 := rfl
@[simp] theorem drewBus_rxCk1 : (s.drewBus).rxCk1 = s.rxCk1 := rfl
@[simp] theorem drewBus_pktCksum : (s.drewBus).pktCksum = s.pktCksum := rfl
@[simp] theorem drewBus_pktCksumOk : (s.drewBus).pktCksumOk = s.pktCksumOk := rfl
@[simp] theorem drewBus_pktDropped : (s.drewBus).pktDropped = s.pktDropped := rfl
@[simp] theorem drewBus_dev : (s.drewBus).dev = s.dev := rfl
@[simp] theorem drewBus_btn : (s.drewBus).btn = s.btn := rfl
@[simp] theorem drewBus_light : (s.drewBus).light = s.light := rfl
@[simp] theorem drewBus_tx : (s.drewBus).tx = s.tx := rfl
@[simp] theorem drewBus_busTx : (s.drewBus).busTx = s.busTx := rfl
@[simp] theorem drewBus_route : (s.drewBus).route = s.route := rfl
@[simp] theorem drewBus_cb : (s.drewBus).cb = s.cb := rfl
@[simp] theorem drewBus_ret : (s.drewBus).ret = s.ret := rfl
@[simp] theorem drewBus_cbAnswers : (s.drewBus).cbAnswers = s.cbAnswers := rfl
@[simp] theorem drewBus_busAnswers : (s.drewBus).busAnswers = s.busAnswers.tail := rfl
@[simp] theorem drewBus_drawCount : (s.drewBus).drawCount = s.drawCount + 1 := rfl

/-! ### `respond` -/

@[simp] theorem respond_cfg (p : Bytes) : (s.respond p).cfg = s.cfg := rfl
@[simp] theorem respond_offers (p : Bytes) : (s.respond p).offers = s.offers := rfl
@[simp] theorem respond_ctxH (p : Bytes) : (s.respond p).ctxH = s.ctxH := rfl
@[simp] theorem respond_ctxL (p : Bytes) : (s.respond p).ctxL = s.ctxL := rfl
@[simp] theorem respond_ckSum1 (p : Bytes) : (s.respond p).ckSum1 = s.ckSum1 := rfl
@[simp] theorem respond_ckSum2 (p : Bytes) : (s.respond p).ckSum2 = s.ckSum2 := rfl
@[simp] theorem respond_rxPhase (p : Bytes) : (s.respond p).rxPhase = s.rxPhase := rfl
@[simp] theorem respond_rxPid (p : Bytes) : (s.respond p).rxPid = s.rxPid := rfl
@[simp] theorem respond_rxType (p : Bytes) : (s.respond p).rxType = s.rxType := rfl
@[simp] theorem respond_rxLen (p : Bytes) : (s.respond p).rxLen = s.rxLen := rfl
@[simp] theorem respond_rxPayload (p : Bytes) : (s.respond p).rxPayload = s.rxPayload := rfl
@[simp] theorem respond_rxCk0 (p : Bytes) : (s.respond p).rxCk0 = s.rxCk0 := rfl
@[simp] theorem respond_rxCk1 (p : Bytes) : (s.respond p).rxCk1 = s.rxCk1 := rfl
@[simp] theorem respond_pktCksum (p : Bytes) : (s.respond p).pktCksum = s.pktCksum := rfl
@[simp] theorem respond_pktCksumOk (p : Bytes) : (s.respond p).pktCksumOk = s.pktCksumOk := rfl
@[simp] theorem respond_pktDropped (p : Bytes) : (s.respond p).pktDropped = s.pktDropped := rfl
@[simp] theorem respond_dev (p : Bytes) : (s.respond p).dev = s.dev := rfl
@[simp] theorem respond_btn (p : Bytes) : (s.respond p).btn = s.btn := rfl
@[simp] theorem respond_light (p : Bytes) : (s.respond p).light = s.light := rfl
@[simp] theorem respond_tx (p : Bytes) : (s.respond p).tx = s.tx ++ s.responseEvents p := rfl
@[simp] theorem respond_busTx (p : Bytes) : (s.respond p).busTx = s.busTx := rfl
@[simp] theorem respond_route (p : Bytes) : (s.respond p).route = s.route := rfl
@[simp] theorem respond_cb (p : Bytes) : (s.respond p).cb = s.cb := rfl
@[simp] theorem respond_ret (p : Bytes) : (s.respond p).ret = s.ret := rfl
@[simp] theorem respond_cbAnswers (p : Bytes) : (s.respond p).cbAnswers = s.cbAnswers := rfl
@[simp] theorem respond_busAnswers (p : Bytes) : (s.respond p).busAnswers = s.busAnswers := rfl
@[simp] theorem respond_drawCount (p : Bytes) : (s.respond p).drawCount = s.drawCount := rfl

/-! ### `countDrop` -/

@[simp] theorem countDrop_cfg : (s.countDrop).cfg = s.cfg := rfl
@[simp] theorem countDrop_offers : (s.countDrop).offers = s.offers := rfl
@[simp] theorem countDrop_ctxH : (s.countDrop).ctxH = s.ctxH := rfl
@[simp] theorem countDrop_ctxL : (s.countDrop).ctxL = s.ctxL := rfl
@[simp] theorem countDrop_ckSum1 : (s.countDrop).ckSum1 = s.ckSum1 := rfl
@[simp] theorem countDrop_ckSum2 : (s.countDrop).ckSum2 = s.ckSum2 := rfl
@[simp] theorem countDrop_rxPhase : (s.countDrop).rxPhase = s.rxPhase := rfl
@[simp] theorem countDrop_rxPid : (s.countDrop).rxPid = s.rxPid := rfl
@[simp] theorem countDrop_rxType : (s.countDrop).rxType = s.rxType := rfl
@[simp] theorem countDrop_rxLen : (s.countDrop).rxLen = s.rxLen := rfl
@[simp] theorem countDrop_rxPayload : (s.countDrop).rxPayload = s.rxPayload := rfl
@[simp] theorem countDrop_rxCk0 : (s.countDrop).rxCk0 = s.rxCk0 := rfl
@[simp] theorem countDrop_rxCk1 : (s.countDrop).rxCk1 = s.rxCk1 := rfl
@[simp] theorem countDrop_pktCksum : (s.countDrop).pktCksum = s.pktCksum := rfl
@[simp] theorem countDrop_pktCksumOk : (s.countDrop).pktCksumOk = s.pktCksumOk := rfl
@[simp] theorem countDrop_pktDropped : (s.countDrop).pktDropped = s.pktDropped + 1 := rfl
@[simp] theorem countDrop_dev : (s.countDrop).dev = s.dev := rfl
@[simp] theorem countDrop_btn : (s.countDrop).btn = s.btn := rfl
@[simp] theorem countDrop_light : (s.countDrop).light = s.light := rfl
@[simp] theorem countDrop_tx : (s.countDrop).tx = s.tx := rfl
@[simp] theorem countDrop_busTx : (s.countDrop).busTx = s.busTx := rfl
@[simp] theorem countDrop_route : (s.countDrop).route = s.route := rfl
@[simp] theorem countDrop_cb : (s.countDrop).cb = s.cb := rfl
@[simp] theorem countDrop_ret : (s.countDrop).ret = s.ret := rfl
@[simp] theorem countDrop_cbAnswers : (s.countDrop).cbAnswers = s.cbAnswers := rfl
@[simp] theorem countDrop_busAnswers : (s.countDrop).busAnswers = s.busAnswers := rfl
@[simp] theorem countDrop_drawCount : (s.countDrop).drawCount = s.drawCount := rfl

/-! ### `latch` -/

@[simp] theorem latch_cfg : (s.latch).cfg = s.cfg := rfl
@[simp] theorem latch_offers : (s.latch).offers = s.offers := rfl
@[simp] theorem latch_ctxH : (s.latch).ctxH = s.ctxH := rfl
@[simp] theorem latch_ctxL : (s.latch).ctxL = s.ctxL := rfl
@[simp] theorem latch_ckSum1 : (s.latch).ckSum1 = s.ckSum1 := rfl
@[simp] theorem latch_ckSum2 : (s.latch).ckSum2 = s.ckSum2 := rfl
@[simp] theorem latch_rxPhase : (s.latch).rxPhase = .scan := rfl
@[simp] theorem latch_rxPid : (s.latch).rxPid = s.rxPid := rfl
@[simp] theorem latch_rxType : (s.latch).rxType = s.rxType := rfl
@[simp] theorem latch_rxLen : (s.latch).rxLen = s.rxLen := rfl
@[simp] theorem latch_rxPayload : (s.latch).rxPayload = s.rxPayload := rfl
@[simp] theorem latch_rxCk0 : (s.latch).rxCk0 = s.rxCk0 := rfl
@[simp] theorem latch_rxCk1 : (s.latch).rxCk1 = s.rxCk1 := rfl
@[simp] theorem latch_pktCksum : (s.latch).pktCksum = assembleCksum s.cfg.cksumOrder s.rxCk0 s.rxCk1 := rfl
@[simp] theorem latch_pktCksumOk : (s.latch).pktCksumOk = cksumVerdict (assembleCksum s.cfg.cksumOrder s.rxCk0 s.rxCk1) s.rxType s.rxLen s.rxPayload := rfl
@[simp] theorem latch_pktDropped : (s.latch).pktDropped = s.pktDropped := rfl
@[simp] theorem latch_dev : (s.latch).dev = s.dev := rfl
@[simp] theorem latch_btn : (s.latch).btn = s.btn := rfl
@[simp] theorem latch_light : (s.latch).light = s.light := rfl
@[simp] theorem latch_tx : (s.latch).tx = s.tx := rfl
@[simp] theorem latch_busTx : (s.latch).busTx = s.busTx := rfl
@[simp] theorem latch_route : (s.latch).route = s.route := rfl
@[simp] theorem latch_cb : (s.latch).cb = s.cb := rfl
@[simp] theorem latch_ret : (s.latch).ret = s.ret := rfl
@[simp] theorem latch_cbAnswers : (s.latch).cbAnswers = s.cbAnswers := rfl
@[simp] theorem latch_busAnswers : (s.latch).busAnswers = s.busAnswers := rfl
@[simp] theorem latch_drawCount : (s.latch).drawCount = s.drawCount := rfl

/-! ### Outcomes -/

/-- What an operation that completes with a returned value answers. -/
theorem returns_eq (r : Ret) : s.returns r = .next { s with ret := r } := rfl

/-- An operation that completes with a returned value answers one state. -/
theorem returns_eq_next {r : Ret} {t : State} : s.returns r = .next t ↔ t = { s with ret := r } := by
  rw [returns_eq, Host.Outcome.next.injEq]
  exact eq_comm

end Sys2Proof.Machine
end

