-- ==== Sys2Proof/Laws/Ops.lean ====
section
/-! SUPPORT. For each shared operation, what it can do: what the elapsed time is, when the guarded forms answer a next state, and which fields the
reader, the link receiver, the dispatcher and the bus receiver can touch. -/

namespace Sys2Proof.Machine

open Sys2Proof

/-! ### Elapsed time -/

/-- The subtraction of timestamps is the one of mathematics, reduced into the range of `i64`. -/
theorem elapsed_eq_bmod (now last : BitVec 64) : elapsed now last = (now.toInt - last.toInt).bmod (2 ^ 64) :=
  BitVec.toInt_sub

/-- Wherever the difference is one of `i64`, as the premise of rule R302 makes it, it is the elapsed time. -/
theorem elapsed_of_fits {now last : BitVec 64} (lo : -(2 ^ 63) ≤ now.toInt - last.toInt)
    (hi : now.toInt - last.toInt < 2 ^ 63) : elapsed now last = now.toInt - last.toInt := by
  rw [elapsed_eq_bmod]
  exact Int.bmod_eq_of_le (by omega) (by omega)

/-! ### Guards: an operation behind one answers a next state only where the guard lets it through -/

theorem withButton_eq_next {n : Nat} {s : State} {f : Button → Result} {t : State} :
    withButton n s f = .next t ↔ ∃ b, s.btn[n]? = some b ∧ f b = .next t := by
  unfold withButton
  cases s.btn[n]? <;> simp

theorem withLight_eq_next {j : Nat} {s : State} {f : Light → Result} {t : State} :
    withLight j s f = .next t ↔ ∃ l, s.light[j]? = some l ∧ f l = .next t := by
  unfold withLight
  cases s.light[j]? <;> simp

theorem withPeriod_eq_next {period : BitVec 64} {r : Result} {t : State} :
    withPeriod period r = .next t ↔ 0 ≤ period.toInt ∧ r = .next t := by
  unfold withPeriod
  split <;> simp_all

theorem withBuffer_eq_next {n limit : Nat} {r : Result} {t : State} :
    withBuffer n limit r = .next t ↔ n ≤ limit ∧ r = .next t := by
  unfold withBuffer
  split <;> simp_all

theorem inLinkMode_eq_next {m : LinkMode} {s : State} {r : Result} {t : State} :
    inLinkMode m s r = .next t ↔ s.cfg.linkMode = m ∧ r = .next t := by
  unfold inLinkMode
  split <;> simp_all

theorem whileReading_eq_next {s : State} {r : Result} {t : State} :
    whileReading s r = .next t ↔ s.rxPhase ≠ .ready ∧ r = .next t := by
  unfold whileReading
  split <;> simp_all

theorem whileReady_eq_next {s : State} {r : Result} {t : State} :
    whileReady s r = .next t ↔ s.rxPhase = .ready ∧ r = .next t := by
  unfold whileReady
  split <;> simp_all

/-! ### Guards: what lies behind one, where it lets the operation through -/

theorem withButton_some {n : Nat} {s : State} {f : Button → Result} {b : Button} (h : s.btn[n]? = some b) :
    withButton n s f = f b := by simp only [withButton, h]

theorem withLight_some {j : Nat} {s : State} {f : Light → Result} {l : Light} (h : s.light[j]? = some l) :
    withLight j s f = f l := by simp only [withLight, h]

theorem withPeriod_of_nonneg {period : BitVec 64} {r : Result} (h : 0 ≤ period.toInt) : withPeriod period r = r :=
  if_neg (Int.not_lt.mpr h)

theorem withBuffer_of_le {n limit : Nat} {r : Result} (h : n ≤ limit) : withBuffer n limit r = r :=
  if_neg (Nat.not_lt.mpr h)

theorem inLinkMode_of_eq {m : LinkMode} {s : State} {r : Result} (h : s.cfg.linkMode = m) : inLinkMode m s r = r :=
  if_pos h

theorem whileReading_of_ne {s : State} {r : Result} (h : s.rxPhase ≠ .ready) : whileReading s r = r := if_neg h

theorem whileReady_of_eq {s : State} {r : Result} (h : s.rxPhase = .ready) : whileReady s r = r := if_pos h

/-! ### Frames of the shared operations -/

/-- The reader writes its own registers only (rule R166). -/
theorem readerByte_frame (s : State) (b : Byte) :
    s.readerByte b =
      { s with
        rxPhase := (s.readerByte b).rxPhase
        rxPid := (s.readerByte b).rxPid
        rxType := (s.readerByte b).rxType
        rxLen := (s.readerByte b).rxLen
        rxPayload := (s.readerByte b).rxPayload
        rxCk0 := (s.readerByte b).rxCk0
        rxCk1 := (s.readerByte b).rxCk1 } := by
  unfold State.readerByte
  split <;> first | rfl | (split <;> rfl)

/-- A frame boundary writes the phase and the drop count only (rule R167). -/
theorem frameEnd_frame (s : State) :
    s.frameEnd = { s with rxPhase := .scan, pktDropped := s.frameEnd.pktDropped } := by
  unfold State.frameEnd
  split
  · next h => rw [← h]
  · rfl

/-- The decoder releases at most one byte for each it takes (rule R161). -/
theorem unstuffByte_length (c : Codec) (b : Byte) : (c.unstuffByte b).1.length ≤ 1 := by
  unfold Codec.unstuffByte
  repeat' split
  all_goals simp

/-- The link receiver writes the reader's registers, context `L` and the drop count only (rule R161). -/
theorem linkByte_frame (s : State) (b : Byte) :
    s.linkByte b =
      { s with
        ctxL := (s.linkByte b).ctxL
        rxPhase := (s.linkByte b).rxPhase
        rxPid := (s.linkByte b).rxPid
        rxType := (s.linkByte b).rxType
        rxLen := (s.linkByte b).rxLen
        rxPayload := (s.linkByte b).rxPayload
        rxCk0 := (s.linkByte b).rxCk0
        rxCk1 := (s.linkByte b).rxCk1
        pktDropped := (s.linkByte b).pktDropped } := by
  unfold State.linkByte
  split
  · rw [frameEnd_frame]
  · match h : (s.ctxL.unstuffByte b).1, unstuffByte_length s.ctxL b with
    | [], _ => rfl
    | [x], _ => rw [List.foldl_cons, List.foldl_nil, readerByte_frame]
    | _ :: _ :: _, h2 => simp at h2

/-- Answering a packet writes the callback log and the draws only (rules R173 to R180). -/
theorem answer_frame (s : State) :
    s.answer.2 =
      { s with
        cb := s.answer.2.cb
        cbAnswers := s.answer.2.cbAnswers
        drawCount := s.answer.2.drawCount } := by
  unfold State.answer
  split <;> try rfl
  unfold State.answerCommand
  repeat' split
  all_goals rfl

/-- The dispatch leaves the reader in `Scan` and writes the packet registers, `TX`, the callback log and the draws only
(rule R170). -/
theorem dispatch_frame (s : State) :
    s.dispatch =
      { s with
        rxPhase := .scan
        pktCksum := s.dispatch.pktCksum
        pktCksumOk := s.dispatch.pktCksumOk
        pktDropped := s.dispatch.pktDropped
        tx := s.dispatch.tx
        cb := s.dispatch.cb
        cbAnswers := s.dispatch.cbAnswers
        drawCount := s.dispatch.drawCount } := by
  unfold State.dispatch
  split
  · rfl
  · rw [answer_frame]
    rfl

/-- One byte of the transport, in either link mode and with the dispatch of what it completes, writes the fields named
here only. -/
theorem transportByteDispatch_frame (s : State) (b : Byte) :
    s.transportByteDispatch b =
      { s with
        ctxL := (s.transportByteDispatch b).ctxL
        rxPhase := (s.transportByteDispatch b).rxPhase
        rxPid := (s.transportByteDispatch b).rxPid
        rxType := (s.transportByteDispatch b).rxType
        rxLen := (s.transportByteDispatch b).rxLen
        rxPayload := (s.transportByteDispatch b).rxPayload
        rxCk0 := (s.transportByteDispatch b).rxCk0
        rxCk1 := (s.transportByteDispatch b).rxCk1
        pktCksum := (s.transportByteDispatch b).pktCksum
        pktCksumOk := (s.transportByteDispatch b).pktCksumOk
        pktDropped := (s.transportByteDispatch b).pktDropped
        tx := (s.transportByteDispatch b).tx
        cb := (s.transportByteDispatch b).cb
        cbAnswers := (s.transportByteDispatch b).cbAnswers
        drawCount := (s.transportByteDispatch b).drawCount } := by
  unfold State.transportByteDispatch State.transportByte
  split <;> split
  · rw [dispatch_frame, readerByte_frame]
  · rw [readerByte_frame]
  · rw [dispatch_frame, linkByte_frame]
  · rw [linkByte_frame]

/-- After one byte of the transport and the dispatch of what it completes, no packet is held. -/
theorem transportByteDispatch_phase (s : State) (b : Byte) : (s.transportByteDispatch b).rxPhase ≠ .ready := by
  unfold State.transportByteDispatch
  split
  · rw [dispatch_frame]
    simp
  · assumption

/-- Any number of bytes of the transport, likewise. -/
theorem transportBytes_frame (bs : Bytes) (s : State) :
    s.transportBytes bs =
      { s with
        ctxL := (s.transportBytes bs).ctxL
        rxPhase := (s.transportBytes bs).rxPhase
        rxPid := (s.transportBytes bs).rxPid
        rxType := (s.transportBytes bs).rxType
        rxLen := (s.transportBytes bs).rxLen
        rxPayload := (s.transportBytes bs).rxPayload
        rxCk0 := (s.transportBytes bs).rxCk0
        rxCk1 := (s.transportBytes bs).rxCk1
        pktCksum := (s.transportBytes bs).pktCksum
        pktCksumOk := (s.transportBytes bs).pktCksumOk
        pktDropped := (s.transportBytes bs).pktDropped
        tx := (s.transportBytes bs).tx
        cb := (s.transportBytes bs).cb
        cbAnswers := (s.transportBytes bs).cbAnswers
        drawCount := (s.transportBytes bs).drawCount } := by
  unfold State.transportBytes
  induction bs generalizing s with
  | nil => rfl
  | cons b bs ih => rw [List.foldl_cons, ih, transportByteDispatch_frame]

/-- A received message writes the device records and the `ROUTE` log only (rule R202). -/
theorem receive_frame (s : State) (id : BitVec 32) (payload : Bytes) :
    s.receive id payload =
      { s with dev := (s.receive id payload).dev, route := (s.receive id payload).route } := by
  unfold State.receive
  dsimp only
  split <;> rfl

end Sys2Proof.Machine
end

