-- ==== Sys2Proof/Laws/PerInstr.lean ====
section
/-! SUPPORT. Statements about every instruction, made constructor by constructor: the byte that spec/opcode_table.json fixes
stands in the instruction's word where the table's format puts it. -/

namespace Sys2Proof.Laws

open Sys2Proof

/-- The byte that the row of spec/opcode_table.json fixes, with its offset in the word: the operation-select byte, the type
byte of an envelope, the error code, the code byte, the start marker. The rows that match any byte fix none, nor do the
channel rows, whose two bits are an offset from a base id. -/
def tableFixed : Instr → Option (Nat × Byte)
  | .enc .. => some (0, 0x00)
  | .dec .. => some (0, 0x01)
  | .maxenc .. => some (0, 0x02)
  | .stuffBegin .. => some (0, 0x03)
  | .stuffByte .. => some (0, 0x04)
  | .stuffEnd => some (0, 0x05)
  | .unstuffBegin .. => some (0, 0x06)
  | .unstuffByte .. => some (0, 0x07)
  | .unstuffEnd => some (0, 0x08)
  | .cksum .. => some (0, 0x20)
  | .checkbytes .. => some (0, 0x21)
  | .verify .. => some (0, 0x22)
  | .ckReset => some (0, 0x23)
  | .ckByte .. => some (0, 0x24)
  | .ckRead => some (0, 0x25)
  | .ckCheckbytes => some (0, 0x26)
  | .rxByte .. => some (0, 0x40)
  | .rxFrameEnd => some (0, 0x41)
  | .pktDispatch => some (0, 0x42)
  | .txSerialize .. => some (0, 0x43)
  | .pktCkstat => some (0, 0x44)
  | .linkRxbyte .. => some (0, 0x45)
  | .busRecv .. => some (0, 0x60)
  | .busSendControl .. => some (0, 0x61)
  | .devGet .. => some (0, 0x62)
  | .busChanid .. => some (0, 0x63)
  | .btnTick .. => some (0, 0x80)
  | .btnIsClick .. => some (0, 0x81)
  | .btnIsSingleClick .. => some (0, 0x82)
  | .btnIsDoubleClick .. => some (0, 0x83)
  | .btnIsLongClick .. => some (0, 0x84)
  | .btnIsReleased .. => some (0, 0x85)
  | .btnState .. => some (0, 0x86)
  | .lightUpdate .. => some (0, 0xA0)
  | .lightSet .. => some (0, 0xA1)
  | .lightToggle .. => some (0, 0xA2)
  | .lightBlink .. => some (0, 0xA3)
  | .lightBlinkToggle .. => some (0, 0xA4)
  | .lightBlinkCount .. => some (0, 0xA5)
  | .lightOut .. => some (0, 0xA6)
  | .pktIdentify .. => some (2, 0x00)
  | .pktStatus .. => some (2, 0x01)
  | .pktCommand .. => some (2, 0x02)
  | .pktPing .. => some (2, 0x03)
  | .pktResponse .. => some (2, 0x04)
  | .pktUnknown .. => none
  | .eSuccess => some (0, 0x00)
  | .eInvalidPacketType => some (0, 0x01)
  | .eInvalidFunction => some (0, 0x02)
  | .eInsufficientParams => some (0, 0x03)
  | .eInvalidDevice => some (0, 0x04)
  | .eUnknown => some (0, 0x05)
  | .chComm .. => none
  | .chControl .. => none
  | .chStatus .. => none
  | .chMisc .. => none
  | .codeStop => some (0, 0x00)
  | .codeFullrun => some (0, 0xFF)
  | .codeRun .. => none
  | .start => some (0, 0x4E)

/-- The word of the instruction has the byte its row fixes, under the configuration after reset, whose codes are the
defaults that the table lists (rules R6 and R96). -/
def FixedByte.Statement (i : Instr) : Prop :=
  ∀ off b, tableFixed i = some (off, b) → (encode Config.default i).bytes[off]? = some b

theorem FixedByte.enc (input : Bytes) (d : Byte) : FixedByte.Statement (.enc input d) := by
  rintro off b ⟨⟩
  rfl

theorem FixedByte.dec (input : Bytes) (d : Byte) : FixedByte.Statement (.dec input d) := by
  rintro off b ⟨⟩
  rfl

theorem FixedByte.maxenc (n : Nat) : FixedByte.Statement (.maxenc n) := by
  rintro off b ⟨⟩
  rfl

theorem FixedByte.stuffBegin (d : Byte) : FixedByte.Statement (.stuffBegin d) := by
  rintro off b ⟨⟩
  rfl

theorem FixedByte.stuffByte (b : Byte) : FixedByte.Statement (.stuffByte b) := by
  rintro off b ⟨⟩
  rfl

theorem FixedByte.stuffEnd : FixedByte.Statement (.stuffEnd) := by
  rintro off b ⟨⟩
  rfl

theorem FixedByte.unstuffBegin (d : Byte) : FixedByte.Statement (.unstuffBegin d) := by
  rintro off b ⟨⟩
  rfl

theorem FixedByte.unstuffByte (b : Byte) : FixedByte.Statement (.unstuffByte b) := by
  rintro off b ⟨⟩
  rfl

theorem FixedByte.unstuffEnd : FixedByte.Statement (.unstuffEnd) := by
  rintro off b ⟨⟩
  rfl

theorem FixedByte.cksum (input : Bytes) : FixedByte.Statement (.cksum input) := by
  rintro off b ⟨⟩
  rfl

theorem FixedByte.checkbytes (input : Bytes) : FixedByte.Statement (.checkbytes input) := by
  rintro off b ⟨⟩
  rfl

theorem FixedByte.verify (input : Bytes) : FixedByte.Statement (.verify input) := by
  rintro off b ⟨⟩
  rfl

theorem FixedByte.ckReset : FixedByte.Statement (.ckReset) := by
  rintro off b ⟨⟩
  rfl

theorem FixedByte.ckByte (b : Byte) : FixedByte.Statement (.ckByte b) := by
  rintro off b ⟨⟩
  rfl

theorem FixedByte.ckRead : FixedByte.Statement (.ckRead) := by
  rintro off b ⟨⟩
  rfl

theorem FixedByte.ckCheckbytes : FixedByte.Statement (.ckCheckbytes) := by
  rintro off b ⟨⟩
  rfl

theorem FixedByte.rxByte (b : Byte) : FixedByte.Statement (.rxByte b) := by
  rintro off b ⟨⟩
  rfl

theorem FixedByte.rxFrameEnd : FixedByte.Statement (.rxFrameEnd) := by
  rintro off b ⟨⟩
  rfl

theorem FixedByte.pktDispatch : FixedByte.Statement (.pktDispatch) := by
  rintro off b ⟨⟩
  rfl

theorem FixedByte.txSerialize (pid ty : Byte) (payload : Bytes) : FixedByte.Statement (.txSerialize pid ty payload) := by
  rintro off b ⟨⟩
  rfl

theorem FixedByte.pktCkstat : FixedByte.Statement (.pktCkstat) := by
  rintro off b ⟨⟩
  rfl

theorem FixedByte.linkRxbyte (b : Byte) : FixedByte.Statement (.linkRxbyte b) := by
  rintro off b ⟨⟩
  rfl

theorem FixedByte.busRecv (id : BitVec 32) (payload : Bytes) : FixedByte.Statement (.busRecv id payload) := by
  rintro off b ⟨⟩
  rfl

theorem FixedByte.busSendControl (k : Nat) (value : Byte) : FixedByte.Statement (.busSendControl k value) := by
  rintro off b ⟨⟩
  rfl

theorem FixedByte.devGet (k : Nat) : FixedByte.Statement (.devGet k) := by
  rintro off b ⟨⟩
  rfl

theorem FixedByte.busChanid (k ch : Nat) : FixedByte.Statement (.busChanid k ch) := by
  rintro off b ⟨⟩
  rfl

theorem FixedByte.btnTick (n : Nat) (pressed : Bool) (now : BitVec 64) : FixedByte.Statement (.btnTick n pressed now) := by
  rintro off b ⟨⟩
  rfl

theorem FixedByte.btnIsClick (n : Nat) : FixedByte.Statement (.btnIsClick n) := by
  rintro off b ⟨⟩
  rfl

theorem FixedByte.btnIsSingleClick (n : Nat) : FixedByte.Statement (.btnIsSingleClick n) := by
  rintro off b ⟨⟩
  rfl

theorem FixedByte.btnIsDoubleClick (n : Nat) : FixedByte.Statement (.btnIsDoubleClick n) := by
  rintro off b ⟨⟩
  rfl

theorem FixedByte.btnIsLongClick (n : Nat) : FixedByte.Statement (.btnIsLongClick n) := by
  rintro off b ⟨⟩
  rfl

theorem FixedByte.btnIsReleased (n : Nat) : FixedByte.Statement (.btnIsReleased n) := by
  rintro off b ⟨⟩
  rfl

theorem FixedByte.btnState (n : Nat) : FixedByte.Statement (.btnState n) := by
  rintro off b ⟨⟩
  rfl

theorem FixedByte.lightUpdate (j : Nat) (now : BitVec 64) : FixedByte.Statement (.lightUpdate j now) := by
  rintro off b ⟨⟩
  rfl

theorem FixedByte.lightSet (j : Nat) (v : Bool) : FixedByte.Statement (.lightSet j v) := by
  rintro off b ⟨⟩
  rfl

theorem FixedByte.lightToggle (j : Nat) : FixedByte.Statement (.lightToggle j) := by
  rintro off b ⟨⟩
  rfl

theorem FixedByte.lightBlink (j : Nat) (period : BitVec 64) : FixedByte.Statement (.lightBlink j period) := by
  rintro off b ⟨⟩
  rfl

theorem FixedByte.lightBlinkToggle (j : Nat) (period : BitVec 64) : FixedByte.Statement (.lightBlinkToggle j period) := by
  rintro off b ⟨⟩
  rfl

theorem FixedByte.lightBlinkCount (j : Nat) (period : BitVec 64) (count : BitVec 32) : FixedByte.Statement (.lightBlinkCount j period count) := by
  rintro off b ⟨⟩
  rfl

theorem FixedByte.lightOut (j : Nat) : FixedByte.Statement (.lightOut j) := by
  rintro off b ⟨⟩
  rfl

theorem FixedByte.pktIdentify (pid : Byte) (payload : Bytes) (ck0 ck1 : Byte) : FixedByte.Statement (.pktIdentify pid payload ck0 ck1) := by
  rintro off b ⟨⟩
  rfl

theorem FixedByte.pktStatus (pid : Byte) (payload : Bytes) (ck0 ck1 : Byte) : FixedByte.Statement (.pktStatus pid payload ck0 ck1) := by
  rintro off b ⟨⟩
  rfl

theorem FixedByte.pktCommand (pid : Byte) (payload : Bytes) (ck0 ck1 : Byte) : FixedByte.Statement (.pktCommand pid payload ck0 ck1) := by
  rintro off b ⟨⟩
  rfl

theorem FixedByte.pktPing (pid : Byte) (payload : Bytes) (ck0 ck1 : Byte) : FixedByte.Statement (.pktPing pid payload ck0 ck1) := by
  rintro off b ⟨⟩
  rfl

theorem FixedByte.pktResponse (pid : Byte) (payload : Bytes) (ck0 ck1 : Byte) : FixedByte.Statement (.pktResponse pid payload ck0 ck1) := by
  rintro off b ⟨⟩
  rfl

theorem FixedByte.pktUnknown (ty pid : Byte) (payload : Bytes) (ck0 ck1 : Byte) : FixedByte.Statement (.pktUnknown ty pid payload ck0 ck1) := by
  rintro off b ⟨⟩

theorem FixedByte.eSuccess : FixedByte.Statement (.eSuccess) := by
  rintro off b ⟨⟩
  rfl

theorem FixedByte.eInvalidPacketType : FixedByte.Statement (.eInvalidPacketType) := by
  rintro off b ⟨⟩
  rfl

theorem FixedByte.eInvalidFunction : FixedByte.Statement (.eInvalidFunction) := by
  rintro off b ⟨⟩
  rfl

theorem FixedByte.eInsufficientParams : FixedByte.Statement (.eInsufficientParams) := by
  rintro off b ⟨⟩
  rfl

theorem FixedByte.eInvalidDevice : FixedByte.Statement (.eInvalidDevice) := by
  rintro off b ⟨⟩
  rfl

theorem FixedByte.eUnknown : FixedByte.Statement (.eUnknown) := by
  rintro off b ⟨⟩
  rfl

theorem FixedByte.chComm (k : Nat) (payload : Bytes) : FixedByte.Statement (.chComm k payload) := by
  rintro off b ⟨⟩

theorem FixedByte.chControl (k : Nat) (payload : Bytes) : FixedByte.Statement (.chControl k payload) := by
  rintro off b ⟨⟩

theorem FixedByte.chStatus (k : Nat) (payload : Bytes) : FixedByte.Statement (.chStatus k payload) := by
  rintro off b ⟨⟩

theorem FixedByte.chMisc (k : Nat) (payload : Bytes) : FixedByte.Statement (.chMisc k payload) := by
  rintro off b ⟨⟩

theorem FixedByte.codeStop : FixedByte.Statement (.codeStop) := by
  rintro off b ⟨⟩
  rfl

theorem FixedByte.codeFullrun : FixedByte.Statement (.codeFullrun) := by
  rintro off b ⟨⟩
  rfl

theorem FixedByte.codeRun (c : Byte) : FixedByte.Statement (.codeRun c) := by
  rintro off b ⟨⟩

theorem FixedByte.start : FixedByte.Statement (.start) := by
  rintro off b ⟨⟩
  rfl

end Sys2Proof.Laws
end

