-- ==== Sys2Proof/Laws/Premises.lean ====
section
/-! SUPPORT. What the premise on timestamps gives for two times of one instance, and how it passes to the rest of a run. -/

namespace Sys2Proof.Machine

open Sys2Proof

@[simp] theorem buttonTimes_nil (n : Nat) : buttonTimes n [] = [] := rfl

@[simp] theorem lightTimes_nil (j : Nat) : lightTimes j [] = [] := rfl

@[simp] theorem buttonTimes_cons (n : Nat) (i : Instr) (ops : List Instr) :
    buttonTimes n (i :: ops) = (buttonTime n i).toList ++ buttonTimes n ops := by
  unfold buttonTimes
  cases h : buttonTime n i <;> simp [h]

@[simp] theorem lightTimes_cons (j : Nat) (i : Instr) (ops : List Instr) :
    lightTimes j (i :: ops) = (lightTime j i).toList ++ lightTimes j ops := by
  unfold lightTimes
  cases h : lightTime j i <;> simp [h]

@[simp] theorem timesPremise_nil : timesPremise [] := by simp [timesPremise]

@[simp] theorem timesPremise_cons (now : BitVec 64) (times : List (BitVec 64)) :
    timesPremise (now :: times) ↔
      (0 ≤ now.toInt ∧ now.toInt < 2 ^ 62) ∧ (∀ later ∈ times, now.toInt ≤ later.toInt) ∧ timesPremise times := by
  simp only [timesPremise, List.forall_mem_cons, List.pairwise_cons]
  tauto

/-- Under the premise the subtraction does not overflow, and its result is not negative (rules R224 and R302). -/
theorem elapsed_of_premise {last now : BitVec 64} {times : List (BitVec 64)} (h : timesPremise (last :: now :: times)) :
    elapsed now last = now.toInt - last.toInt ∧ 0 ≤ elapsed now last := by
  rw [timesPremise_cons, timesPremise_cons] at h
  have h3 := h.2.1 now (by simp)
  have e := elapsed_of_fits (now := now) (last := last) (by omega) (by omega)
  exact ⟨e, by omega⟩

/-- The premise holds of any part of the times, in their order. -/
theorem timesPremise_of_sublist {a b : List (BitVec 64)} (hs : a.Sublist b) (h : timesPremise b) : timesPremise a :=
  ⟨fun now hn => h.1 now (hs.subset hn), h.2.sublist hs⟩

/-- A stored time of zero is before every time of the premise, as after reset (rules R302 and R303). -/
theorem timesPremise_zero_cons {times : List (BitVec 64)} (h : timesPremise times) : timesPremise (0 :: times) := by
  simp only [timesPremise_cons, h, and_true]
  exact ⟨by decide, fun now hn => (h.1 now hn).1⟩

/-- The premise passes over one operation: it is enough that each stored time is what it was or the time of that operation. -/
theorem timestampPremise_of_times {i : Instr} {ops : List Instr} {s t : State} (h : s.timestampPremise (i :: ops))
    (btn : ∀ n b', t.btn[n]? = some b' → ∃ b, s.btn[n]? = some b ∧
      (b'.lastTransitionTime = b.lastTransitionTime ∨ buttonTime n i = some b'.lastTransitionTime))
    (light : ∀ j l', t.light[j]? = some l' → ∃ l, s.light[j]? = some l ∧
      (l'.lastTime = l.lastTime ∨ lightTime j i = some l'.lastTime)) : t.timestampPremise ops := by
  refine ⟨fun n b' hb' => ?_, fun j l' hl' => ?_⟩
  · obtain ⟨b, hb, he⟩ := btn n b' hb'
    have hp := h.1 n b hb
    rw [buttonTimes_cons] at hp
    rcases he with he | he
    · rw [he]
      exact timesPremise_of_sublist (by simp) hp
    · rw [he] at hp
      exact timesPremise_of_sublist (by simp) hp
  · obtain ⟨l, hl, he⟩ := light j l' hl'
    have hp := h.2 j l hl
    rw [lightTimes_cons] at hp
    rcases he with he | he
    · rw [he]
      exact timesPremise_of_sublist (by simp) hp
    · rw [he] at hp
      exact timesPremise_of_sublist (by simp) hp

end Sys2Proof.Machine
end

