-- ==== Sys2Proof/Laws/Step.lean ====
section
/-! SUPPORT. What a step can do, said once, and the outcome of the dispatch. -/

namespace Sys2Proof.Machine

open Sys2Proof

/-- Under a configuration of this hardware, a step does what was fetched. -/
theorem step_of_ok {s : State} (h : s.cfg.ok) :
    step s = match fetch s with
      | .idle => .next s
      | .internalDispatch => exec .pktDispatch s
      | .noOperation => .refused .notAnOperation
      | .offered i rest => exec i { s with offers := rest } :=
  if_pos h

/-- Under any other configuration there is no step. -/
theorem step_of_not_ok {s : State} (h : ¬ s.cfg.ok) : step s = .refused .badConfiguration := if_neg h

/-- What is fetched when nothing is offered. -/
theorem fetch_nil {s : State} (h : s.offers = []) :
    fetch s = if s.rxPhase = .ready then .internalDispatch else .idle := by
  simp only [fetch, h]

/-- What is fetched when a word of a row is offered. -/
theorem fetch_cons {s : State} {o : Offer} {rest : List Offer} {i : Instr} (h : s.offers = o :: rest)
    (hd : decode s.cfg o = some i) : fetch s = if waits i s then .internalDispatch else .offered i rest := by
  simp only [fetch, h, hd]

/-- What is fetched when a word of no row is offered. -/
theorem fetch_cons_none {s : State} {o : Offer} {rest : List Offer} (h : s.offers = o :: rest)
    (hd : decode s.cfg o = none) : fetch s = .noOperation := by
  simp only [fetch, h, hd]

/-- A step that goes on either is idle, or runs one operation, on the state or on it with fewer words offered. -/
theorem step_cases {s t : State} (h : step s = .next t) :
    s.cfg.ok ∧ (t = s ∨ ∃ i rest, exec i { s with offers := rest } = .next t) := by
  by_cases hc : s.cfg.ok
  · refine ⟨hc, ?_⟩
    rw [step_of_ok hc] at h
    split at h
    · exact .inl (by simpa using h.symm)
    · exact .inr ⟨.pktDispatch, s.offers, h⟩
    · cases h
    · next i rest _ => exact .inr ⟨i, rest, h⟩
  · rw [step_of_not_ok hc] at h
    cases h

/-- The outcome of the dispatch of a held packet. -/
theorem exec_pktDispatch {s : State} (h : s.rxPhase = .ready) :
    exec .pktDispatch s = .next { s.dispatch with ret := .none } := if_pos h

/-- The dispatch leaves the reader in `Scan`. -/
@[simp] theorem dispatch_rxPhase (s : State) : s.dispatch.rxPhase = .scan := by rw [dispatch_frame]

/-- The dispatch leaves the offers. -/
@[simp] theorem dispatch_offers (s : State) : s.dispatch.offers = s.offers := by rw [dispatch_frame]

/-- The dispatch leaves the configuration. -/
@[simp] theorem dispatch_cfg (s : State) : s.dispatch.cfg = s.cfg := by rw [dispatch_frame]

end Sys2Proof.Machine
end

