-- ==== Sys2Proof/Laws/Trace.lean ====
section
/-! SUPPORT. What the pseudo-operations of the trace language expand to. -/

namespace Sys2Proof.Machine

/-- The times of a run of ticks: those a whole number of steps `dt` after `t0` that do not pass `t1` (rule R101). -/
theorem mem_tickTimes {t0 t1 t : BitVec 64} {dt : Nat} (h : 0 < dt) :
    t ∈ tickTimes t0 t1 dt ↔ ∃ m : Nat, t.toInt = t0.toInt + m * dt ∧ t.toInt ≤ t1.toInt := by
  have hlo := BitVec.le_toInt t0
  have hhi := BitVec.toInt_lt (x := t1)
  have hd : (0 : Int) < dt := by omega
  have hn (m : Nat) : m < ((t1.toInt + dt - t0.toInt) / dt).toNat ↔ t0.toInt + m * dt ≤ t1.toInt := by
    rw [Int.lt_toNat, Int.lt_iff_add_one_le, Int.le_ediv_iff_mul_le hd, Int.add_mul]
    omega
  have hof (m : Nat) (hm : t0.toInt + m * dt ≤ t1.toInt) :
      (BitVec.ofInt 64 (t0.toInt + m * dt)).toInt = t0.toInt + m * dt := by
    have : (0 : Int) ≤ m * dt := by positivity
    exact BitVec.toInt_ofInt_eq_self (by omega) (by omega) (by omega)
  simp only [tickTimes, List.mem_map, List.mem_range, hn]
  constructor
  · rintro ⟨m, hm, rfl⟩
    exact ⟨m, hof m hm, (hof m hm).symm ▸ hm⟩
  · rintro ⟨m, he, hm⟩
    exact ⟨m, he ▸ hm, BitVec.eq_of_toInt_eq ((hof m (he ▸ hm)).trans he.symm)⟩

end Sys2Proof.Machine
end

