-- ==== Sys2Proof/Tests/Slice0.lean ====
section
/-! SUPPORT. Tests: the checks of WellFormed refuse, every row's word written out from the spec decodes, single steps against
the vectors of spec/95_test_vectors.md, and for each statement with hypotheses a state and operands that meet them. -/

namespace Sys2Proof.Tests

open Sys2Proof Sys2Proof.Machine

/-! ### Helpers -/

/-- A field of the next state, if there is one. -/
def after {α : Type} (r : Result) (f : State → α) : Option α :=
  match r with
  | .next t => some (f t)
  | _ => none

/-- Why an outcome is a refusal, if it is one. -/
def refusal (r : Result) : Option Refusal :=
  match r with
  | .refused e => some e
  | _ => none

/-- Reset with changed parameters. -/
def withCfg (f : Config → Config) : State := State.resetWith (f Config.default)

/-- Reset with a stuffed link. -/
def stuffed : State := withCfg fun c => { c with linkMode := .stuffed }

/-- Reset with strict checksums. -/
def strict : State := withCfg fun c => { c with checksumStrict := true }

/-- The held Ping of V40. -/
def heldPing : State := State.reset.holding 0x07 3 [] 0x03 0x06

/-- The held Command of V45, with the handler's answer placed. -/
def heldCommand (answers : Bytes) : State :=
  { State.reset.holding 0x30 2 [0x01, 0x10, 0x20] 0x36 0x59 with cbAnswers := answers }

/-- Reset with one button. -/
def oneButton (b : Button) : State := { State.reset with btn := [b] }

/-- Reset with one light. -/
def oneLight (l : Light) : State := { State.reset with light := [l] }

/-- A decode test: the bytes of a word of the given format are the instruction, under the default configuration. -/
abbrev reads (fmt : Format) (bytes : Bytes) (i : Instr) : Prop := decode Config.default ⟨fmt, bytes⟩ = some i

/-! ### WellFormed refuses -/

theorem test_wf_long_sequence (s : Bytes) (h : s.length = 2 ^ 32) :
    WellFormed Config.default (.enc s 0) = false ∧ WellFormed Config.default (.dec s 0) = false ∧
    WellFormed Config.default (.cksum s) = false ∧ WellFormed Config.default (.checkbytes s) = false ∧
    WellFormed Config.default (.verify s) = false ∧ WellFormed Config.default (.txSerialize 0 0 s) = false ∧
    WellFormed Config.default (.busRecv 0 s) = false ∧ WellFormed Config.default (.chComm 0 s) = false ∧
    WellFormed Config.default (.chControl 0 s) = false ∧ WellFormed Config.default (.chStatus 0 s) = false ∧
    WellFormed Config.default (.chMisc 0 s) = false := by
  simp [WellFormed, h]

theorem test_wf_long_sequence_term : WellFormed Config.default (.enc (List.replicate (2 ^ 32) 0) 0) = false :=
  (test_wf_long_sequence _ List.length_replicate).1

theorem test_wf_number : WellFormed Config.default (.maxenc (2 ^ 64)) = false := by decide

theorem test_wf_index :
    ∀ i ∈ [Instr.busSendControl (2 ^ 32) 0, .devGet (2 ^ 32), .busChanid (2 ^ 32) 0, .busChanid 0 256,
      .btnTick (2 ^ 32) true 0, .btnIsClick (2 ^ 32), .btnIsSingleClick (2 ^ 32), .btnIsDoubleClick (2 ^ 32),
      .btnIsLongClick (2 ^ 32), .btnIsReleased (2 ^ 32), .btnState (2 ^ 32), .lightUpdate (2 ^ 32) 0,
      .lightSet (2 ^ 32) true, .lightToggle (2 ^ 32), .lightBlink (2 ^ 32) 0, .lightBlinkToggle (2 ^ 32) 0,
      .lightBlinkCount (2 ^ 32) 0 0, .lightOut (2 ^ 32)], WellFormed Config.default i = false := by
  decide

set_option maxRecDepth 4000 in
theorem test_wf_long_payload :
    ∀ i ∈ [Instr.pktIdentify 0 (List.replicate 256 0) 0 0, .pktStatus 0 (List.replicate 256 0) 0 0,
      .pktCommand 0 (List.replicate 256 0) 0 0, .pktPing 0 (List.replicate 256 0) 0 0,
      .pktResponse 0 (List.replicate 256 0) 0 0, .pktUnknown 9 0 (List.replicate 256 0) 0 0],
      WellFormed Config.default i = false := by
  decide

theorem test_wf_other_rows_codes :
    ∀ i ∈ [Instr.pktUnknown 3 0 [] 0 0, .codeRun 0x00, .codeRun 0xFF, .chComm 2 [], .chControl 2 [], .chStatus 2 [],
      .chMisc 2 []], WellFormed Config.default i = false := by
  decide

/-! ### Words written out from the spec's encodings (R82, R84, R87, R88, R96; operand layout: log entry 4) -/

theorem test_decode_codec :
    reads .opsel [0x00, 2, 0, 0, 0, 0x11, 0x00, 0x05] (.enc [0x11, 0x00] 0x05) ∧
    reads .opsel [0x01, 1, 0, 0, 0, 0x01, 0x00] (.dec [0x01] 0x00) ∧
    reads .opsel [0x02, 0xFD, 1, 0, 0, 0, 0, 0, 0] (.maxenc 509) ∧
    reads .opsel [0x03, 0x05] (.stuffBegin 0x05) ∧
    reads .opsel [0x04, 0x11] (.stuffByte 0x11) ∧
    reads .opsel [0x05] .stuffEnd ∧
    reads .opsel [0x06, 0x05] (.unstuffBegin 0x05) ∧
    reads .opsel [0x07, 0x03] (.unstuffByte 0x03) ∧
    reads .opsel [0x08] .unstuffEnd := by
  decide

theorem test_decode_cksum :
    reads .opsel [0x20, 2, 0, 0, 0, 0x01, 0x02] (.cksum [0x01, 0x02]) ∧
    reads .opsel [0x21, 1, 0, 0, 0, 0x4E] (.checkbytes [0x4E]) ∧
    reads .opsel [0x22, 0, 0, 0, 0] (.verify []) ∧
    reads .opsel [0x23] .ckReset ∧
    reads .opsel [0x24, 0xF8] (.ckByte 0xF8) ∧
    reads .opsel [0x25] .ckRead ∧
    reads .opsel [0x26] .ckCheckbytes := by
  decide

theorem test_decode_pkt :
    reads .opsel [0x40, 0x4E] (.rxByte 0x4E) ∧
    reads .opsel [0x41] .rxFrameEnd ∧
    reads .opsel [0x42] .pktDispatch ∧
    reads .opsel [0x43, 0x21, 0x02, 3, 0, 0, 0, 0x02, 0xAA, 0xBB] (.txSerialize 0x21 0x02 [0x02, 0xAA, 0xBB]) ∧
    reads .opsel [0x44] .pktCkstat ∧
    reads .opsel [0x45, 0x04] (.linkRxbyte 0x04) := by
  decide

theorem test_decode_bus :
    reads .opsel [0x60, 0x02, 0x01, 0, 0, 1, 0, 0, 0, 0x7F] (.busRecv 0x102 [0x7F]) ∧
    reads .opsel [0x61, 1, 0, 0, 0, 0x55] (.busSendControl 1 0x55) ∧
    reads .opsel [0x62, 2, 0, 0, 0] (.devGet 2) ∧
    reads .opsel [0x63, 1, 0, 0, 0, 2] (.busChanid 1 2) := by
  decide

theorem test_decode_btn :
    reads .opsel [0x80, 0, 0, 0, 0, 1, 0x50, 0xC3, 0, 0, 0, 0, 0, 0] (.btnTick 0 true 50000) ∧
    reads .opsel [0x81, 1, 0, 0, 0] (.btnIsClick 1) ∧
    reads .opsel [0x82, 0, 1, 0, 0] (.btnIsSingleClick 256) ∧
    reads .opsel [0x83, 0, 0, 1, 0] (.btnIsDoubleClick 65536) ∧
    reads .opsel [0x84, 0, 0, 0, 1] (.btnIsLongClick 16777216) ∧
    reads .opsel [0x85, 2, 0, 0, 0] (.btnIsReleased 2) ∧
    reads .opsel [0x86, 3, 0, 0, 0] (.btnState 3) := by
  decide

theorem test_decode_light :
    reads .opsel [0xA0, 1, 0, 0, 0, 0, 0, 0, 0, 0, 0, 0, 0x80] (.lightUpdate 1 0x8000000000000000) ∧
    reads .opsel [0xA1, 0, 0, 0, 0, 0] (.lightSet 0 false) ∧
    reads .opsel [0xA2, 1, 0, 0, 0] (.lightToggle 1) ∧
    reads .opsel [0xA3, 0, 0, 0, 0, 100, 0, 0, 0, 0, 0, 0, 0] (.lightBlink 0 100) ∧
    reads .opsel [0xA4, 0, 0, 0, 0, 0, 1, 0, 0, 0, 0, 0, 0] (.lightBlinkToggle 0 256) ∧
    reads .opsel [0xA5, 0, 0, 0, 0, 100, 0, 0, 0, 0, 0, 0, 0, 3, 0, 0, 1] (.lightBlinkCount 0 100 0x01000003) ∧
    reads .opsel [0xA6, 1, 0, 0, 0] (.lightOut 1) := by
  decide

theorem test_decode_packets :
    reads .envelope [0x4E, 0x05, 0x00, 0x00, 0x00, 0x00] (.pktIdentify 0x05 [] 0x00 0x00) ∧
    reads .envelope [0x4E, 0x06, 0x01, 0x00, 0x01, 0x02] (.pktStatus 0x06 [] 0x01 0x02) ∧
    reads .envelope [0x4E, 0x21, 0x02, 0x01, 0x03, 0x06, 0x0B] (.pktCommand 0x21 [0x03] 0x06 0x0B) ∧
    reads .envelope [0x4E, 0x07, 0x03, 0x00, 0x03, 0x06] (.pktPing 0x07 [] 0x03 0x06) ∧
    reads .envelope [0x4E, 0x08, 0x04, 0x01, 0x00, 0x05, 0x0E] (.pktResponse 0x08 [0x00] 0x05 0x0E) ∧
    reads .envelope [0x4E, 0x01, 0x09, 0x00, 0x09, 0x12] (.pktUnknown 0x09 0x01 [] 0x09 0x12) := by
  decide

theorem test_decode_codes :
    reads .errorCode [0x00] .eSuccess ∧ reads .errorCode [0x01] .eInvalidPacketType ∧
    reads .errorCode [0x02] .eInvalidFunction ∧ reads .errorCode [0x03] .eInsufficientParams ∧
    reads .errorCode [0x04] .eInvalidDevice ∧ reads .errorCode [0x05] .eUnknown ∧
    reads .stuffCode [0x00] .codeStop ∧ reads .stuffCode [0xFF] .codeFullrun ∧
    reads .stuffCode [0xFE] (.codeRun 0xFE) ∧ reads .stuffCode [0x01] (.codeRun 0x01) ∧
    reads .start [0x4E] .start := by
  decide

theorem test_decode_channels :
    reads .channel [0x00, 0x01, 0, 0, 0, 0, 0, 0] (.chComm 0 []) ∧
    reads .channel [0x01, 0x02, 0, 0, 1, 0, 0, 0, 0x7F] (.chControl 1 [0x7F]) ∧
    reads .channel [0x02, 0x01, 0, 0, 1, 0, 0, 0, 0x09] (.chStatus 0 [0x09]) ∧
    reads .channel [0x03, 0x02, 0, 0, 0, 0, 0, 0] (.chMisc 1 []) := by
  decide

theorem test_decode_refuses :
    decode Config.default ⟨.opsel, [0x09]⟩ = none ∧ decode Config.default ⟨.opsel, [0x46]⟩ = none ∧
    decode Config.default ⟨.opsel, [0xC0]⟩ = none ∧ decode Config.default ⟨.opsel, [0x05, 0x00]⟩ = none ∧
    decode Config.default ⟨.opsel, [0xA1, 0, 0, 0, 0, 2]⟩ = none ∧ decode Config.default ⟨.errorCode, [0x06]⟩ = none ∧
    decode Config.default ⟨.channel, [0x04, 0x01, 0, 0, 0, 0, 0, 0]⟩ = none ∧
    decode Config.default ⟨.envelope, [0x4F, 0, 3, 0, 3, 6]⟩ = none := by
  decide

theorem test_table_words :
    decodeTableWord 8 0x07 = some (.unstuffByte 0) ∧ decodeTableWord 8 0xA5 = some (.lightBlinkCount 0 0 0) ∧
    decodeTableWord 8 0x4E = some .start ∧ decodeTableWord 8 0xFF = some .codeFullrun ∧
    decodeTableWord 8 0xC0 = none ∧
    after (step (State.reset.withFetchWord 8 0x44)) (·.ret) = some (.ckstat 0 true 0 .scan) := by
  decide

/-! ### Single steps, from the vectors of spec/95_test_vectors.md -/

/-- V7, V9 and V11. -/
theorem test_enc :
    after (exec (.enc [0x11, 0x22, 0x00, 0x33] 0x00) .reset) (·.ret) = some (.bytes [0x03, 0x11, 0x22, 0x02, 0x33]) ∧
    after (exec (.enc [0x00, 0x05, 0x00] 0x05) .reset) (·.ret) = some (.bytes [0x02, 0x00, 0x02, 0x00]) := by
  decide

/-- V24 and V28. -/
theorem test_dec :
    after (exec (.dec [0x02, 0x11, 0x00, 0x02, 0x22] 0x00) .reset) (·.ret) = some (.bytes [0x11]) ∧
    after (exec (.dec [0x01, 0x02, 0x01, 0x01] 0x4E) .reset) (·.ret) = some (.bytes [0x4E, 0x01, 0x4E]) := by
  decide

/-- V17. -/
theorem test_maxenc :
    after (exec (.maxenc 0) .reset) (·.ret) = some (.nat 0) ∧
    after (exec (.maxenc 509) .reset) (·.ret) = some (.nat 512) := by
  decide

/-- The streaming form of V7, after its first two bytes. -/
theorem test_stuff :
    returnedBytes [.stuffBegin 0x00, .stuffByte 0x11, .stuffByte 0x22, .stuffByte 0x00] .reset =
      some [0x03, 0x11, 0x22] ∧
    after (exec .stuffEnd { State.reset with ctxH := { State.reset.ctxH with encRun := [0x33] } }) (·.ret) =
      some (.bytes [0x02, 0x33]) := by
  decide

/-- The streaming input `05 11 22` of section 2.1, and its `UNSTUFF.END`. -/
theorem test_unstuff :
    returnedBytes [.unstuffBegin 0x00, .unstuffByte 0x05, .unstuffByte 0x11, .unstuffByte 0x22] .reset =
      some [0x11, 0x22] ∧
    after (exec .unstuffEnd { State.reset with ctxH := { State.reset.ctxH with decBlock := 2 } }) (·.ret) =
      some (.bool false) := by
  decide

/-- The code bytes of V26 and V24. -/
theorem test_code_bytes :
    after (exec .codeFullrun .reset) (·.ctxH.decBlock) = some 254 ∧
    after (exec (.codeRun 0x02) .reset) (·.ctxH.decBlock) = some 1 ∧
    after (exec .codeStop .reset) (·.ctxH.decStop) = some true := by
  decide

/-- V32 and V34. -/
theorem test_cksum :
    after (exec (.cksum [0x02, 0x01]) .reset) (·.ret) = some (.u16 0x0503) ∧
    after (exec (.cksum [0x61, 0x62, 0x63, 0x64, 0x65]) .reset) (·.ret) = some (.u16 0xC8F0) := by
  decide

/-- V37. -/
theorem test_checkbytes :
    after (exec (.checkbytes []) .reset) (·.ret) = some (.pair 0xFF 0xFF) ∧
    after (exec (.checkbytes [0x02, 0x01]) .reset) (·.ret) = some (.pair 0xF7 0x05) := by
  decide

/-- V39. -/
theorem test_verify :
    after (exec (.verify [0x01, 0x02, 0xF8, 0x04]) .reset) (·.ret) = some (.bool true) ∧
    after (exec (.verify [0x01, 0x02, 0xF8, 0x05]) .reset) (·.ret) = some (.bool false) := by
  decide

/-- The streaming checksum of section 2.2: the accumulators (3, 4), then (251, 0). -/
theorem test_rolling_checksum :
    after (exec .ckRead { State.reset with ckSum1 := 3, ckSum2 := 4 }) (·.ret) = some (.u16 0x0403) ∧
    after (exec .ckCheckbytes { State.reset with ckSum1 := 3, ckSum2 := 4 }) (·.ret) = some (.pair 0xF8 0x04) ∧
    after (exec (.ckByte 0xF8) { State.reset with ckSum1 := 3, ckSum2 := 4 }) (fun t => (t.ckSum1, t.ckSum2)) =
      some (251, 0) ∧
    after (exec .ckReset { State.reset with ckSum1 := 3, ckSum2 := 4 }) (fun t => (t.ckSum1, t.ckSum2)) =
      some (0, 0) := by
  decide

/-- V40: the whole Ping over the raw link, and the reader's phase after its first byte. -/
theorem test_ping :
    after (exec (.pktPing 0x07 [] 0x03 0x06) .reset) (·.tx) =
      some [.write [0x4E, 0x07, 0x04, 0x01, 0x00, 0x05, 0x0E], .flush] ∧
    after (exec .start .reset) (·.rxPhase) = some .pid ∧
    after (exec (.rxByte 0x4D) .reset) (·.rxPhase) = some .scan := by
  decide

/-- V42: the same Ping over the stuffed link. -/
theorem test_ping_stuffed :
    after (exec (.pktPing 0x07 [] 0x03 0x06) stuffed) (·.tx) =
      some [.write [0x05, 0x4E, 0x07, 0x04, 0x01, 0x03, 0x05, 0x0E, 0x00], .flush] := by
  decide

/-- V43. -/
theorem test_identify :
    after (exec (.pktIdentify 0x05 [] 0x00 0x00) .reset) (·.tx) =
      some [.write [0x4E, 0x05, 0x04, 0x08, 0x00, 0x01, 0x00, 0x03, 0x6E, 0x6F, 0x64, 0x65, 0xB7, 0xBC], .flush] := by
  decide

/-- V44. -/
theorem test_status :
    after (exec (.pktStatus 0x06 [] 0x01 0x02) { State.reset with cbAnswers := [0x10, 0x20, 0x30, 0x40] }) (·.tx) =
      some [.write [0x4E, 0x06, 0x04, 0x05, 0x00, 0x10, 0x20, 0x30, 0x40, 0xA9, 0x7B], .flush] := by
  decide

/-- V45, with the handler's answers 0 and 5, and V46 and V47. -/
theorem test_command :
    after (exec .pktDispatch (heldCommand [0x00])) (·.cb) = some [.command 0x01 [0x10, 0x20] 0x00] ∧
    after (exec .eUnknown (heldCommand [0x05])) (·.tx) =
      some [.write [0x4E, 0x30, 0x04, 0x01, 0x05, 0x0A, 0x13], .flush] ∧
    after (exec (.pktCommand 0x21 [0x03] 0x06 0x0B) .reset) (·.tx) =
      some [.write [0x4E, 0x21, 0x04, 0x01, 0x02, 0x07, 0x10], .flush] ∧
    after (exec .eInsufficientParams (State.reset.holding 0x21 2 [0x02, 0xAA, 0xBB] 0x6D 0x2D)) (·.tx) =
      some [.write [0x4E, 0x21, 0x04, 0x01, 0x03, 0x08, 0x11], .flush] := by
  decide

/-- The two codes a handler gives, and V46 and V49 to V51 by the row of their answer. -/
theorem test_error_rows :
    after (exec .eInvalidDevice (heldCommand [0x04])) (·.cbAnswers) = some [] ∧
    after (exec .eInvalidFunction (State.reset.holding 0x21 2 [0x03] 0x06 0x0B)) (·.cb) = some [] ∧
    after (exec .eInvalidPacketType (State.reset.holding 0x01 9 [] 0x09 0x12)) (·.tx) =
      some [.write [0x4E, 0x01, 0x04, 0x01, 0x01, 0x06, 0x0F], .flush] ∧
    after (exec .eSuccess heldPing) (·.rxPhase) = some .scan := by
  decide

/-- V49 and V50. -/
theorem test_unknown_types :
    after (exec (.pktUnknown 0x09 0x01 [] 0x09 0x12) .reset) (·.tx) =
      some [.write [0x4E, 0x01, 0x04, 0x01, 0x01, 0x06, 0x0F], .flush] ∧
    after (exec (.pktResponse 0x08 [0x00] 0x05 0x0E) .reset) (·.tx) =
      some [.write [0x4E, 0x08, 0x04, 0x01, 0x01, 0x06, 0x0F], .flush] := by
  decide

/-- V52, without and with strictness. -/
theorem test_bad_checksum :
    after (exec (.pktPing 0x08 [] 0x03 0xF9) .reset) (fun t => (t.pktCksum, t.pktCksumOk, t.pktDropped)) =
      some (0xF903, false, 0) ∧
    after (exec (.pktPing 0x08 [] 0x03 0xF9) strict) (fun t => (t.tx, t.pktDropped)) = some ([], 1) := by
  decide

set_option maxRecDepth 20000 in
/-- V53: `len = 254`. -/
theorem test_over_length :
    after (exec (.pktPing 0x03 (List.replicate 254 0xAA) 0x57 0x03) .reset)
      (fun t => (t.tx, t.pktCksum, t.pktCksumOk, t.pktDropped)) = some ([], 0x0357, true, 1) := by
  decide

/-- V55. -/
theorem test_high_byte_first :
    after (exec (.pktPing 0x07 [] 0x06 0x03) (withCfg fun c => { c with cksumOrder := .hiFirst })) (·.tx) =
      some [.write [0x4E, 0x07, 0x04, 0x01, 0x00, 0x0E, 0x05], .flush] := by
  decide

/-- V56, and the status read after reset. -/
theorem test_serialize :
    after (exec (.txSerialize 0x21 2 [0x02, 0xAA, 0xBB]) .reset) (·.ret) =
      some (.bytes [0x4E, 0x21, 0x02, 0x03, 0x02, 0xAA, 0xBB, 0x6D, 0x2D]) ∧
    after (exec .pktCkstat .reset) (·.ret) = some (.ckstat 0x0000 true 0 .scan) := by
  decide

/-- R32: while a packet is held no other operation of PKT runs; offered, it waits for the dispatch. -/
theorem test_serialize_held :
    exec .pktCkstat heldPing = .refused .notEnabled ∧ exec (.txSerialize 7 3 []) heldPing = .refused .notEnabled ∧
    after (step { heldPing with offers := [⟨.opsel, [0x44]⟩] }) (fun t => (t.rxPhase, t.offers)) =
      some (.scan, [⟨.opsel, [0x44]⟩]) :=
  ⟨rfl, rfl, by decide⟩

/-- R101, with the `i64` times of log entry 24. -/
theorem test_tick_times :
    btnTicks 0 true (-2) 3 2 = [.btnTick 0 true (-2), .btnTick 0 true 0, .btnTick 0 true 2] ∧
    lightUpdates 0 5 5 1 = [.lightUpdate 0 5] ∧ lightUpdates 0 5 4 1 = [] := by
  decide

/-- V58: the boundary in phase `Len`, by the delimiter and by the direct operation; V59. -/
theorem test_frame_end :
    after (exec (.linkRxbyte 0x00) { stuffed with rxPhase := .len }) (fun t => (t.rxPhase, t.pktDropped)) =
      some (.scan, 1) ∧
    after (exec .rxFrameEnd { stuffed with rxPhase := .len }) (fun t => (t.rxPhase, t.pktDropped)) = some (.scan, 1) ∧
    after (exec (.linkRxbyte 0x00) stuffed) (·.pktDropped) = some 0 := by
  decide

/-- V60 to V64. -/
theorem test_bus_receive :
    after (exec (.busRecv 0x102 [1, 2, 3, 4, 5]) .reset) (·.dev) = some [⟨1, 2, 3, 4, 5⟩, ⟨0, 0, 0, 0, 0⟩] ∧
    after (exec (.busRecv 0x102 [9, 9, 9, 9]) .reset) (fun t => (t.dev, t.route)) =
      some ([⟨0, 0, 0, 0, 0⟩, ⟨0, 0, 0, 0, 0⟩], [⟨0x102, [9, 9, 9, 9], some (0, .status), false⟩]) ∧
    after (exec (.busRecv 0x104 [1, 2, 3, 4, 5]) .reset) (·.route) = some [⟨0x104, [1, 2, 3, 4, 5], none, false⟩] := by
  decide

/-- V60, V64 and V68 by the rows of the channels. -/
theorem test_channels :
    after (exec (.chStatus 1 [0xFF, 0x00, 0xFF, 0x00, 0xFF]) .reset) (·.dev[1]?) =
      some (some ⟨0xFF, 0x00, 0xFF, 0x00, 0xFF⟩) ∧
    after (exec (.chControl 1 [0x7F]) .reset) (·.route) = some [⟨0x201, [0x7F], some (1, .control), false⟩] ∧
    after (exec (.chComm 0 [1, 2, 3, 4, 5]) .reset) (·.route) =
      some [⟨0x100, [1, 2, 3, 4, 5], some (0, .comm), false⟩] ∧
    after (exec (.chMisc 1 []) .reset) (·.route) = some [⟨0x203, [], some (1, .misc), false⟩] := by
  decide

/-- V65 and V66. -/
theorem test_send_control :
    after (exec (.busSendControl 1 0x55) { State.reset with busAnswers := [.busError 7] })
      (fun t => (t.busTx, t.ret)) = some ([⟨0x201, [0x55]⟩], .busAnswer (.busError 7)) ∧
    after (exec (.busSendControl 2 0x55) .reset) (fun t => (t.busTx, t.ret)) = some ([], .err 4) := by
  decide

/-- V61. -/
theorem test_dev_get :
    after (exec (.devGet 0) { State.reset with dev := [⟨1, 2, 3, 4, 5⟩, ⟨0, 0, 0, 0, 0⟩] }) (·.ret) =
      some (.device ⟨1, 2, 3, 4, 5⟩) ∧
    after (exec (.devGet 2) .reset) (·.ret) = some (.err 4) := by
  decide

/-- V67. -/
theorem test_chanid :
    after (exec (.busChanid 1 2) .reset) (·.ret) = some (.u32 0x202) ∧
    after (exec (.busChanid 0 3) .reset) (·.ret) = some (.u32 0x103) := by
  decide

/-- V70 and V74: the debounce threshold, one tick before it and at it. -/
theorem test_debounce :
    after (exec (.btnTick 0 true 49999) (oneButton ⟨.debounce, 0, true⟩)) (·.btn) = some [⟨.debounce, 0, false⟩] ∧
    after (exec (.btnTick 0 true 50000) (oneButton ⟨.debounce, 0, true⟩)) (·.btn) = some [⟨.pressed, 50000, true⟩] := by
  decide

/-- V70 at 550000, and V71 at 221000. -/
theorem test_long_click :
    after (exec (.btnTick 0 true 550000) (oneButton ⟨.pressed, 50000, false⟩)) (·.btn) =
      some [⟨.longClick, 550000, true⟩] ∧
    after (exec (.btnTick 0 false 221000) (oneButton ⟨.otherUp, 220000, true⟩)) (·.btn) =
      some [⟨.idle, 221000, true⟩] := by
  decide

/-- The predicates in V70 at 50000, V71 at 210000 and 220000, V72 at 411000, V70 at 550000, V78. -/
theorem test_predicates :
    after (exec (.btnIsClick 0) (oneButton ⟨.pressed, 50000, true⟩)) (·.ret) = some (.bool true) ∧
    after (exec (.btnIsClick 0) (oneButton ⟨.pressed, 50000, false⟩)) (·.ret) = some (.bool false) ∧
    after (exec (.btnIsDoubleClick 0) (oneButton ⟨.doubleClick, 210000, true⟩)) (·.ret) = some (.bool true) ∧
    after (exec (.btnIsSingleClick 0) (oneButton ⟨.singleClick, 411000, true⟩)) (·.ret) = some (.bool true) ∧
    after (exec (.btnIsLongClick 0) (oneButton ⟨.longClick, 550000, true⟩)) (·.ret) = some (.bool true) ∧
    after (exec (.btnIsReleased 0) (oneButton ⟨.otherUp, 220000, true⟩)) (·.ret) = some (.bool true) ∧
    after (exec (.btnIsReleased 0) { withCfg (fun c => { c with releasedOnOtherUp := false }) with
      btn := [⟨.otherUp, 220000, true⟩] }) (·.ret) = some (.bool false) ∧
    after (exec (.btnState 0) (oneButton ⟨.pressed, 50000, false⟩)) (·.ret) = some (.gesture .pressed false) := by
  decide

/-- V80: before 101, at 101, and the third falling edge at 606. -/
theorem test_counted_blink :
    after (exec (.lightUpdate 0 100) (oneLight ⟨.blinkCount, false, 0, 100, 3, 0, false, false⟩)) (·.light) =
      some [⟨.blinkCount, false, 0, 100, 3, 0, false, false⟩] ∧
    after (exec (.lightUpdate 0 606) (oneLight ⟨.blinkCount, false, 505, 100, 3, 2, true, true⟩)) (·.light) =
      some [⟨.blinkCount, false, 606, 100, 3, 3, false, false⟩] := by
  decide

/-- V81 at 101, and V86. -/
theorem test_light_update :
    after (exec (.lightUpdate 0 101) (oneLight ⟨.blink, false, 0, 100, 0, 0, false, false⟩)) (·.light) =
      some [⟨.blink, false, 101, 100, 0, 0, true, true⟩] ∧
    after (exec (.lightUpdate 0 5) (oneLight ⟨.on, true, 0, 100, 0, 0, false, false⟩)) (·.light) =
      some [⟨.on, false, 0, 100, 0, 0, false, true⟩] := by
  decide

/-- V83, V84, V85, V88 and V89: the mutators. -/
theorem test_light_mutators :
    after (exec (.lightToggle 0) (oneLight ⟨.blink, false, 0, 100, 0, 0, true, true⟩)) (·.light) =
      some [⟨.on, true, 0, 100, 0, 0, true, true⟩] ∧
    after (exec (.lightBlinkToggle 0 50) (oneLight ⟨.blink, false, 1, 50, 0, 0, false, false⟩)) (·.light) =
      some [⟨.off, true, 1, 50, 0, 0, false, false⟩] ∧
    after (exec (.lightBlinkCount 0 10 1) (oneLight ⟨.blinkCount, false, 22, 10, 1, 1, false, false⟩)) (·.light) =
      some [⟨.blinkCount, true, 22, 10, 1, 0, false, false⟩] ∧
    after (exec (.lightBlink 0 0) .reset) (·.light) = some [⟨.blink, true, 0, 0, 0, 0, false, false⟩] ∧
    after (exec (.lightSet 0 true) .reset) (·.light) = some [⟨.on, true, 0, 0, 0, 0, false, false⟩] ∧
    after (exec (.lightOut 0) (oneLight ⟨.on, true, 0, 0, 0, 0, false, false⟩)) (·.ret) = some (.bool false) := by
  decide

/-! ### Witnesses: for each statement with hypotheses, a state and operands that meet them together -/

/-- Reset with words offered. -/
def offering (os : List Offer) : State := { State.reset with offers := os }

/-- Reset with the reader in the given phase. -/
def inPhase (p : RxPhase) : State := { State.reset with rxPhase := p }

/-- Reset with context `H` as given. -/
def withCtxH (c : Codec) : State := { State.reset with ctxH := c }

/-- Reset with a stuffed link and context `L` as given. -/
def withCtxL (c : Codec) : State := { stuffed with ctxL := c }

theorem witness_DecodeInvertsEncode :
    Config.default.ok ∧ WellFormed Config.default (.busChanid (2 ^ 32 - 1) 255) = true ∧
    WellFormed Config.default (.pktUnknown 5 0xFF [1, 2] 3 4) = true ∧
    WellFormed Config.default (.chMisc 1 [0x4E]) = true ∧ WellFormed Config.default (.codeRun 0xFE) = true := by
  decide

theorem witness_OnlyFortyOpselsAreOperations :
    (offering [⟨.opsel, [0x09]⟩]).cfg.ok ∧ (offering [⟨.opsel, [0x09]⟩]).offers = ⟨.opsel, [0x09]⟩ :: [] ∧
    [9, 7, 6, 4, 7, 7, 0, 0].getD ((0x09 : Byte).toNat / 32) 0 ≤ (0x09 : Byte).toNat % 32 ∧
    (0x08 : Byte).toNat % 32 < [9, 7, 6, 4, 7, 7, 0, 0].getD ((0x08 : Byte).toNat / 32) 0 ∧
    (0xA6 : Byte).toNat % 32 < [9, 7, 6, 4, 7, 7, 0, 0].getD ((0xA6 : Byte).toNat / 32) 0 := by
  decide

theorem witness_StepRunsOfferedOperation :
    (offering [⟨.opsel, [0x24, 0x01]⟩]).cfg.ok ∧
    decode (offering [⟨.opsel, [0x24, 0x01]⟩]).cfg ⟨.opsel, [0x24, 0x01]⟩ = some (.ckByte 0x01) ∧
    ¬ waits (.ckByte 0x01) (offering [⟨.opsel, [0x24, 0x01]⟩]) := by
  decide

theorem witness_TransportByteWaitsForDispatch :
    heldPing.cfg.ok ∧ decode heldPing.cfg ⟨.opsel, [0x40, 0x4E]⟩ = some (.rxByte 0x4E) ∧
    portOf (.rxByte 0x4E) = .transportRx ∧ { heldPing with offers := [⟨.opsel, [0x40, 0x4E]⟩] }.rxPhase = .ready ∧
    decode heldPing.cfg ⟨.opsel, [0x44]⟩ = some .pktCkstat ∧
    decode heldPing.cfg ⟨.opsel, [0x43, 7, 3, 0, 0, 0, 0]⟩ = some (.txSerialize 7 3 []) := by
  decide

theorem witness_StepsWithNothingOffered :
    ¬ (withCfg fun c => { c with tPing := 0 }).cfg.ok ∧
    (State.reset.cfg.ok ∧ State.reset.offers = [] ∧ State.reset.rxPhase ≠ .ready) ∧
    (heldPing.cfg.ok ∧ heldPing.offers = [] ∧ heldPing.rxPhase = .ready) := by
  decide

theorem witness_StepKeepsInvariant :
    (offering [⟨.opsel, [0xA1, 0, 0, 0, 0, 1]⟩]).Inv ∧
    ∃ t, step (offering [⟨.opsel, [0xA1, 0, 0, 0, 0, 1]⟩]) = .next t := by
  refine ⟨⟨by decide, ?_, ?_, ?_, ?_, by decide, by decide, ?_, rfl, rfl, rfl, ?_⟩, ⟨_, rfl⟩⟩
  · unfold Codec.encoderInv; decide
  · unfold Codec.decoderInv; decide
  · unfold Codec.encoderInv; decide
  · unfold Codec.decoderInv; decide
  · unfold State.readerInv; decide
  · intro l hl
    rw [List.mem_singleton.mp hl]
    exact ⟨by decide, by decide, fun _ => rfl⟩

theorem witness_ResetMeetsInvariant : Config.default.ok ∧ stuffed.cfg.ok := by decide

theorem witness_ResetValues :
    1 < Config.default.numDevices ∧ 0 < Config.default.numButtons ∧ 0 < Config.default.numLights := by
  decide

theorem witness_ConfigurationIsConstant : ∃ t, exec (.btnTick 0 true 5) .reset = .next t := ⟨_, rfl⟩

theorem witness_OnlyStatusMessagesWriteDevices :
    State.reset.cfg.ok ∧
    ∃ t, exec (.busRecv 0x202 [1, 2, 3, 4, 5]) .reset = .next t ∧ t.dev ≠ State.reset.dev :=
  ⟨by decide, _, rfl, by decide⟩

theorem witness_EachRegisterHasOneWritingPort :
    (∃ t, exec (.chStatus 0 [1, 2, 3, 4, 5]) .reset = .next t ∧ t.dev ≠ State.reset.dev) ∧
    (∃ t, exec (.btnTick 0 true 5) .reset = .next t ∧ t.btn ≠ State.reset.btn) ∧
    (∃ t, exec (.lightToggle 0) .reset = .next t ∧ t.light ≠ State.reset.light) ∧
    (∃ t, exec (.rxByte 7) (inPhase .pid) = .next t ∧ t.rxPid ≠ (inPhase .pid).rxPid) ∧
    (∃ t, exec .pktDispatch heldPing = .next t ∧ t.rxPhase ≠ heldPing.rxPhase) ∧
    (∃ t, exec (.ckByte 1) .reset = .next t ∧ t.ckSum1 ≠ State.reset.ckSum1) :=
  ⟨⟨_, rfl, by decide⟩, ⟨_, rfl, by decide⟩, ⟨_, rfl, by decide⟩, ⟨_, rfl, by decide⟩, ⟨_, rfl, by decide⟩,
    ⟨_, rfl, by decide⟩⟩

theorem witness_OnlyResponsesAreTransmitted :
    State.reset.cfg.ok ∧ ∃ t, exec (.pktPing 7 [] 3 6) .reset = .next t ∧ t.tx ≠ [] :=
  ⟨by decide, _, rfl, by decide⟩

theorem witness_LogsAreAppendOnly :
    (∃ t, exec (.busSendControl 1 0x55) .reset = .next t ∧ t.busTx ≠ State.reset.busTx) ∧
    (∃ t, exec (.chComm 0 []) .reset = .next t ∧ t.route ≠ State.reset.route) ∧
    (∃ t, exec .pktDispatch (heldCommand [0]) = .next t ∧ t.cb ≠ (heldCommand [0]).cb) ∧
    (∃ t, exec .eSuccess heldPing = .next t ∧ t.tx ≠ heldPing.tx) := by
  refine ⟨⟨_, rfl, ?_⟩, ⟨_, rfl, by decide⟩, ⟨_, rfl, by decide⟩, ⟨_, rfl, by decide⟩⟩
  exact List.cons_ne_nil _ _

theorem witness_ReadsHaveNoSideEffect :
    readOnly (.enc [0x11] 0) = true ∧ ∃ t, exec (.enc [0x11] 0) .reset = .next t := ⟨rfl, _, rfl⟩

theorem witness_BrokenPreconditionsAreRefused :
    ((withCfg fun c => { c with maxBuf := 1 }).cfg.maxBuf < ([1, 2] : Bytes).length) ∧
    ((withCfg fun c => { c with maxBuf := 1 }).cfg.maxBuf < (enc [1] 0).length) ∧
    ((withCfg fun c => { c with maxBuf := 1 }).cfg.maxBuf < ([] : Bytes).length + 2) ∧
    State.reset.cfg.linkMode = .raw ∧ stuffed.cfg.linkMode = .stuffed ∧
    (heldPing.cfg.linkMode = .raw ∧ heldPing.rxPhase = .ready) ∧
    (stuffed.cfg.linkMode = .stuffed ∧ { stuffed with rxPhase := .ready }.rxPhase = .ready) ∧
    State.reset.rxPhase ≠ .ready ∧
    State.reset.cfg.busMaxPayload < ([1, 2, 3, 4, 5, 6, 7, 8, 9] : Bytes).length ∧
    State.reset.cfg.numDevices ≤ 2 ∧ 1 < State.reset.cfg.numDevices ∧ 3 < 4 ∧
    State.reset.btn.length ≤ 1 ∧ State.reset.light.length ≤ 1 ∧
    (0 < State.reset.light.length ∧ (0xFFFFFFFFFFFFFFFF : BitVec 64).toInt < 0) := by
  decide

theorem witness_BrokenPreconditionsAreRefused_payloads :
    253 < (List.replicate 254 (0 : Byte)).length ∧ 255 < (List.replicate 256 (0 : Byte)).length ∧
    (List.replicate 255 (0 : Byte)).length ≤ 255 := by
  simp only [List.length_replicate]
  decide

theorem witness_DecodeInvertsStuffing :
    ([0x11, 0x22, 0x00, 0x33] : Bytes).length ≤ (withCfg fun c => { c with maxBuf := 5 }).cfg.maxBuf ∧
    (enc [0x11, 0x22, 0x00, 0x33] 0).length ≤ (withCfg fun c => { c with maxBuf := 5 }).cfg.maxBuf := by
  decide

theorem witness_EncoderCutsRuns :
    (0 : Byte) ∉ List.replicate 253 (1 : Byte) ∧ (List.replicate 253 (1 : Byte)).length ≤ 253 ∧
    (0 : Byte) ∉ List.replicate 254 (1 : Byte) ∧ (List.replicate 254 (1 : Byte)).length = 254 ∧
    ([0x00] : Bytes) ≠ [] := by
  simp only [List.length_replicate, List.mem_replicate]
  decide

theorem witness_DecoderDegradesGracefully :
    ([0x11, 0x22] : Bytes).length ≤ 4 ∧ 4 ≤ 254 ∧ (List.replicate 254 (0 : Byte)).length ≤ 254 ∧
    (List.replicate 253 (0 : Byte)).length ≤ 253 ∧ (List.replicate 254 (0 : Byte)).length = 254 :=
  ⟨by decide, by decide, List.length_replicate.le, List.length_replicate.le, List.length_replicate⟩

theorem witness_FramerOperations :
    (1 : Byte) ≠ (withCtxH (.reset 0)).ctxH.encD ∧ (withCtxH (.reset 0)).ctxH.encRun.length ≠ 253 ∧
    (withCtxH { Codec.reset 0 with encRun := List.replicate 253 1 }).ctxH.encRun.length = 253 ∧
    (withCtxH (.reset 0)).ctxH.encOpen = true ∧
    (withCtxH { Codec.reset 0 with encOpen := false }).ctxH.encOpen = false :=
  ⟨by decide, by decide, List.length_replicate, rfl, rfl⟩

theorem witness_UnstufferOperations :
    (withCtxH { Codec.reset 0 with decCode := 0, decStop := true }).ctxH.decStop = true ∧
    ((withCtxH { Codec.reset 0 with decBlock := 1 }).ctxH.decStop = false ∧
      (withCtxH { Codec.reset 0 with decBlock := 1 }).ctxH.decBlock ≠ 0) ∧
    ((withCtxH (.reset 0)).ctxH.decStop = false ∧ (withCtxH (.reset 0)).ctxH.decBlock = 0) ∧
    ((0x01 : Byte) ≠ 0x00 ∧ (0x01 : Byte) ≠ 0xFF) := by
  decide

theorem witness_ChecksumIsWeightedSum :
    ([1, 2] : Bytes).length ≤ (withCfg fun c => { c with maxBuf := 2 }).cfg.maxBuf := by decide

theorem witness_RollingChecksumAgrees :
    ([1, 2] : Bytes).length ≤ (withCfg fun c => { c with maxBuf := 2 }).cfg.maxBuf := by decide

theorem witness_CheckBytesVerify :
    ([1, 2] : Bytes).length + 2 ≤ (withCfg fun c => { c with maxBuf := 4 }).cfg.maxBuf := by decide

/-- V39. -/
theorem witness_VerifyDetectsOneByteChange :
    ([0x01] : Bytes).length + ([0xF8, 0x04] : Bytes).length < (withCfg fun c => { c with maxBuf := 4 }).cfg.maxBuf ∧
    (0x02 : Byte) ≠ 0x03 ∧ ¬ ((0x02 : Byte) = 0x00 ∧ (0x03 : Byte) = 0xFF) ∧
    ¬ ((0x02 : Byte) = 0xFF ∧ (0x03 : Byte) = 0x00) ∧
    exec (.verify ([0x01] ++ 0x02 :: [0xF8, 0x04])) (withCfg fun c => { c with maxBuf := 4 }) =
      .next { (withCfg fun c => { c with maxBuf := 4 }) with ret := .bool true } :=
  ⟨by decide, by decide, by decide, by decide, rfl⟩

theorem witness_ReaderTakesByteByPhase :
    State.reset.cfg.linkMode = .raw ∧ State.reset.rxPhase = .scan ∧ (0x4D : Byte) ≠ 0x4E ∧
    (inPhase .pid).rxPhase = .pid ∧ (inPhase .type).rxPhase = .type ∧ (inPhase .len).rxPhase = .len ∧
    { inPhase .payload with rxLen := 2 }.rxPayload.length + 1 ≠ { inPhase .payload with rxLen := 2 }.rxLen.toNat ∧
    { inPhase .payload with rxLen := 1 }.rxPayload.length + 1 = { inPhase .payload with rxLen := 1 }.rxLen.toNat ∧
    (inPhase .ck0).rxPhase = .ck0 ∧ (inPhase .ck1).rxPhase = .ck1 := by
  decide

theorem witness_ReaderTakesWholeEnvelope :
    State.reset.cfg.linkMode = .raw ∧ State.reset.rxPhase = .scan ∧ (List.replicate 255 (0x4E : Byte)).length ≤ 255 :=
  ⟨rfl, rfl, List.length_replicate.le⟩

theorem witness_PacketRowsCrossEitherLink :
    State.reset.betweenPackets ∧ stuffed.betweenPackets ∧ (List.replicate 255 (0x4E : Byte)).length ≤ 255 :=
  ⟨by decide, by decide, List.length_replicate.le⟩

theorem witness_PacketRowsAreTheirBytes :
    ((inPhase .payload).rxPhase ≠ .ready ∧ (inPhase .payload).cfg.linkMode = .raw) ∧
    (stuffed.rxPhase ≠ .ready ∧ stuffed.cfg.linkMode = .stuffed) ∧ ([0x4E] : Bytes).length ≤ 255 := by
  decide

theorem witness_StuffedLinkOperations :
    (stuffed.cfg.linkMode = .stuffed ∧ stuffed.rxPhase ≠ .ready ∧ stuffed.rxPhase = .scan) ∧
    ({ stuffed with rxPhase := .ck1 }.rxPhase ≠ .ready ∧ { stuffed with rxPhase := .ck1 }.rxPhase ≠ .scan) ∧
    ((0x01 : Byte) ≠ stuffed.cfg.linkDelim ∧ (0x01 : Byte) ≠ 0) ∧
    (withCtxL { Codec.reset 0 with decCode := 0, decStop := true }).ctxL.decStop = true ∧
    (withCtxL { Codec.reset 0 with decBlock := 1 }).ctxL.decBlock ≠ 0 ∧
    ((withCtxL (.reset 0)).ctxL.decStop = false ∧ (withCtxL (.reset 0)).ctxL.decBlock = 0 ∧
      (withCtxL (.reset 0)).ctxL.decCode = 0xFF) ∧
    (withCtxL { Codec.reset 0 with decCode := 0x04 }).ctxL.decCode ≠ 0xFF := by
  decide

theorem witness_PingIsAnsweredWithSuccess :
    heldPing.cfg.ok ∧ heldPing.accepts ∧ heldPing.rxType = heldPing.cfg.tPing := by decide

theorem witness_IdentifyAndStatusAreAnswered :
    (State.reset.holding 5 0 [] 0 0).cfg.ok ∧ (State.reset.holding 5 0 [] 0 0).accepts ∧
    (State.reset.holding 5 0 [] 0 0).rxType = (State.reset.holding 5 0 [] 0 0).cfg.tIdentify ∧
    (State.reset.holding 6 1 [] 1 2).cfg.ok ∧ (State.reset.holding 6 1 [] 1 2).accepts ∧
    (State.reset.holding 6 1 [] 1 2).rxType = (State.reset.holding 6 1 [] 1 2).cfg.tStatus := by
  decide

/-- V46: the index of the sentinel slot. -/
theorem witness_CommandIndexOutOfRangeIsAnswered :
    (State.reset.holding 0x21 2 [0x03] 0x06 0x0B).cfg.ok ∧ (State.reset.holding 0x21 2 [0x03] 0x06 0x0B).accepts ∧
    (State.reset.holding 0x21 2 [0x03] 0x06 0x0B).rxType = State.reset.cfg.tCommand ∧
    (State.reset.holding 0x21 2 [0x03] 0x06 0x0B).rxLen ≠ 0 ∧
    (State.reset.holding 0x21 2 [0x03] 0x06 0x0B).rxPayload = 0x03 :: [] ∧
    State.reset.cfg.numCmds ≤ (0x03 : Byte).toNat := by
  decide

/-- V45, V47 and V48, with each answer a row names. -/
theorem witness_CommandIsCheckedAndCalled :
    ((State.reset.holding 9 2 [] 2 4).cfg.ok ∧ (State.reset.holding 9 2 [] 2 4).accepts ∧
      (State.reset.holding 9 2 [] 2 4).rxType = State.reset.cfg.tCommand ∧
      (State.reset.holding 9 2 [] 2 4).rxLen = 0) ∧
    ((heldCommand [0]).accepts ∧ (heldCommand [0]).rxType = (heldCommand [0]).cfg.tCommand ∧
      (heldCommand [0]).rxLen ≠ 0 ∧ (heldCommand [0]).rxPayload = 0x01 :: [0x10, 0x20] ∧
      (heldCommand [0]).cfg.minParams[(0x01 : Byte).toNat]? = some 2 ∧ 2 ≤ ([0x10, 0x20] : Bytes).length) ∧
    ((State.reset.holding 0x21 2 [2, 0xAA, 0xBB] 0x6D 0x2D).accepts ∧
      State.reset.cfg.minParams[(0x02 : Byte).toNat]? = some 3 ∧ ([0xAA, 0xBB] : Bytes).length < 3) ∧
    (heldCommand [0]).nextCbByte = (heldCommand [0]).cfg.eSuccess ∧
    (heldCommand [4]).nextCbByte = (heldCommand [4]).cfg.eInvalidDevice ∧
    (heldCommand [5]).nextCbByte = (heldCommand [5]).cfg.eUnknown := by
  decide

theorem witness_UnknownTypeIsAnswered :
    (State.reset.holding 8 4 [0] 5 0x0E).cfg.ok ∧ (State.reset.holding 8 4 [0] 5 0x0E).accepts ∧
    (∀ ty ∈ [State.reset.cfg.tIdentify, State.reset.cfg.tStatus, State.reset.cfg.tCommand, State.reset.cfg.tPing],
      (State.reset.holding 8 4 [0] 5 0x0E).rxType ≠ ty) := by
  decide

set_option maxRecDepth 4000 in
theorem witness_BadPacketsAreDropped :
    ((State.reset.holding 3 3 (List.replicate 254 0xAA) 0x57 3).rxPhase = .ready ∧
      253 < (State.reset.holding 3 3 (List.replicate 254 0xAA) 0x57 3).rxLen.toNat) ∧
    ((strict.holding 8 3 [] 3 0xF9).rxPhase = .ready ∧ (strict.holding 8 3 [] 3 0xF9).cfg.checksumStrict = true ∧
      ¬ (strict.holding 8 3 [] 3 0xF9).cksumMatches) := by
  decide

theorem witness_ErrorRowsAreDispatchCases :
    heldPing.cfg.ok ∧ Instr.eSuccess ∈ errorRows ∧ (∃ t, exec .eSuccess heldPing = .next t) ∧
    Instr.eUnknown ∈ errorRows ∧ Instr.eUnknown ≠ .eSuccess :=
  ⟨by decide, by decide, ⟨_, rfl⟩, by decide, by decide⟩

theorem witness_SerializeBuildsEnvelope :
    State.reset.rxPhase ≠ .ready ∧
    (List.replicate 253 (0 : Byte)).length ≤ 253 ∧ State.reset.cfg.cksumOrder = .loFirst ∧
    (withCfg fun c => { c with cksumOrder := .hiFirst }).cfg.cksumOrder = .hiFirst ∧
    State.reset.cfg.typeCodes.Nodup ∧ (0 : Byte) = State.reset.cfg.tIdentify ∧ (1 : Byte) = State.reset.cfg.tStatus ∧
    (2 : Byte) = State.reset.cfg.tCommand ∧ (3 : Byte) = State.reset.cfg.tPing ∧
    (4 : Byte) = State.reset.cfg.tResponse ∧ (5 : Byte) ∉ State.reset.cfg.typeCodes :=
  ⟨by decide, List.length_replicate.le, by decide, by decide, by decide, by decide, by decide, by decide, by decide,
    by decide, by decide⟩

theorem witness_SerializedPacketsVerify :
    stuffed.cfg.ok ∧ stuffed.betweenPackets ∧ strict.cfg.ok ∧ strict.betweenPackets ∧
    ([0x00, 0x4E] : Bytes).length ≤ 253 := by
  decide

theorem witness_StatusMessageUpdatesRecord :
    State.reset.cfg.ok ∧ State.reset.cfg.baseIds[1]? = some 0x200 ∧
    5 ≤ (withCfg fun c => { c with busMaxPayload := 5 }).cfg.busMaxPayload ∧
    (([1, 2, 3, 4] : Bytes).length ≤ State.reset.cfg.busMaxPayload ∧ ([1, 2, 3, 4] : Bytes).length ≠ 5) ∧
    (([1, 2, 3, 4, 5, 6] : Bytes).length ≤ State.reset.cfg.busMaxPayload ∧
      ([1, 2, 3, 4, 5, 6] : Bytes).length ≠ 5) := by
  decide

theorem witness_EveryMessageIsRoutedOnce :
    State.reset.cfg.ok ∧ ([1, 2, 3, 4, 5, 6, 7, 8] : Bytes).length ≤ State.reset.cfg.busMaxPayload ∧
    State.reset.cfg.baseIds[0]? = some 0x100 ∧ ([1, 2, 3, 4] : Bytes).length ≠ 5 ∧
    ([1, 2, 3, 4, 5] : Bytes).length ≤ State.reset.cfg.busMaxPayload ∧
    (∀ base ∈ State.reset.cfg.baseIds,
      ¬ (base.toNat ≤ (0x104 : BitVec 32).toNat ∧ (0x104 : BitVec 32).toNat ≤ base.toNat + 3)) := by
  refine ⟨by decide, by decide, rfl, by decide, by decide, fun base h => ?_⟩
  obtain rfl | rfl : base = 0x100 ∨ base = 0x200 := by
    have h2 : base ∈ [(0x100 : BitVec 32), 0x200] := h
    simpa using h2
  all_goals decide

theorem witness_SendControlTransmitsOneByte :
    State.reset.cfg.baseIds[1]? = some 0x200 ∧
    { State.reset with busAnswers := [.ok] }.busAnswers = BusAnswer.ok :: [] := by
  decide

theorem witness_DevGetReadsWholeRecord :
    State.reset.cfg.ok ∧ State.reset.dev.length = State.reset.cfg.numDevices ∧ State.reset.cfg.numDevices ≤ 2 ∧
    1 < State.reset.cfg.numDevices ∧ State.reset.cfg.baseIds[1]? = some 0x200 ∧
    ∃ t, exec (.busRecv (0x200 + 2) [1, 2, 3, 4, 5]) .reset = .next t :=
  ⟨by decide, by decide, by decide, by decide, by decide, _, rfl⟩

theorem witness_DeviceIndexOutOfRangeIsReturned :
    State.reset.dev.length = State.reset.cfg.numDevices ∧ State.reset.cfg.numDevices ≤ 2 ∧ 3 ≤ 3 := by decide

theorem witness_ChannelIdsAreSumsAndDistinct :
    State.reset.cfg.ok ∧ 1 < State.reset.cfg.numDevices ∧ 3 ≤ 3 ∧
    exec (.busChanid 1 3) .reset = .next { State.reset with ret := .u32 0x203 } :=
  ⟨by decide, by decide, by decide, rfl⟩

theorem witness_ButtonTickFollowsTable :
    (oneButton ⟨.debounce, 0, true⟩).btn[0]? = some ⟨.debounce, 0, true⟩ ∧
    gestureRow (oneButton ⟨.debounce, 0, true⟩).cfg .debounce true (elapsed 50000 0) .pressed ∧
    ∀ st', ¬ gestureRow (oneButton ⟨.debounce, 0, true⟩).cfg .debounce true (elapsed 49999 0) st' := by
  have h1 : elapsed 50000 0 = 50000 := by decide
  have h2 : elapsed 49999 0 = 49999 := by decide
  rw [h1, h2]
  refine ⟨rfl, ?_, fun st' => ?_⟩
  · simp [gestureRow, oneButton, State.reset, State.resetWith, Config.default]
  · simp [gestureRow, oneButton, State.reset, State.resetWith, Config.default]

theorem witness_ElapsedIsSignedDifference :
    (-(2 ^ 63) ≤ (0x7FFFFFFFFFFFFFFF : BitVec 64).toInt - (0 : BitVec 64).toInt ∧
      (0x7FFFFFFFFFFFFFFF : BitVec 64).toInt - (0 : BitVec 64).toInt < 2 ^ 63) ∧
    2 ^ 63 ≤ (0x7FFFFFFFFFFFFFFF : BitVec 64).toInt - (-1 : BitVec 64).toInt ∧
    (0x8000000000000000 : BitVec 64).toInt - (1 : BitVec 64).toInt < -(2 ^ 63) ∧
    timesPremise [0, 0x3FFFFFFFFFFFFFFF] ∧ (-1 : Int) < 0 ∧
    ((oneLight ⟨.blink, false, 5, 0, 0, 0, true, true⟩).light[0]? = some ⟨.blink, false, 5, 0, 0, 0, true, true⟩ ∧
      (oneLight ⟨.blinkCount, false, 5, 0, 1, 0, true, true⟩).light[0]? =
        some ⟨.blinkCount, false, 5, 0, 1, 0, true, true⟩ ∧
      (0 : BitVec 32).toNat < (1 : BitVec 32).toNat ∧ 0 ≤ (0 : BitVec 64).toInt ∧ elapsed 4 5 < 0) :=
  ⟨by decide, by decide, by decide, by simp, by decide, by decide⟩

/-- Reset with one tick offered, `BTN.TICK 0, true, 5`. -/
def offeringTick : State := offering [⟨.opsel, [0x80, 0, 0, 0, 0, 1, 5, 0, 0, 0, 0, 0, 0, 0]⟩]

theorem offeringTick_offeredOps : offeringTick.offeredOps = [.btnTick 0 true 5] := by decide

/-- R302: operations that keep the premise and some that break it, and states from which it holds. -/
theorem witness_ElapsedIsSignedDifference_premise :
    timestampPremise [.btnTick 0 true 5, .lightUpdate 0 4, .btnTick 0 true 5] ∧
    ¬ timestampPremise [.btnTick 0 true 5, .btnTick 0 true 4] ∧
    (State.reset.timestampPremise [.btnTick 0 true 5] ∧ ∃ t, exec (.btnTick 0 true 5) .reset = .next t) ∧
    (State.reset.timestampPremise [.lightUpdate 0 5] ∧ ∃ t, exec (.lightUpdate 0 5) .reset = .next t) ∧
    (offeringTick.timestampPremise offeringTick.offeredOps ∧ ∃ t, step offeringTick = .next t) := by
  have hb {n : Nat} {b : Button} (h : State.reset.btn[n]? = some b) : b.lastTransitionTime = 0 := by
    obtain rfl : b = Button.reset := List.eq_of_mem_replicate (List.mem_of_getElem? h)
    rfl
  have hl {j : Nat} {l : Light} (h : State.reset.light[j]? = some l) : l.lastTime = 0 := by
    obtain rfl : l = Light.reset := List.eq_of_mem_replicate (List.mem_of_getElem? h)
    rfl
  have tick (n : Nat) : timesPremise (0 :: buttonTimes n [.btnTick 0 true 5]) := by
    cases n <;> simp [buttonTime]
  have update (j : Nat) : timesPremise (0 :: lightTimes j [.lightUpdate 0 5]) := by
    cases j <;> simp [lightTime]
  refine ⟨⟨fun n => ?_, fun j => ?_⟩, fun h => ?_, ⟨⟨?_, ?_⟩, _, rfl⟩, ⟨⟨?_, ?_⟩, _, rfl⟩,
    ⟨⟨?_, ?_⟩, _, rfl⟩⟩
  · cases n <;> simp [buttonTime]
  · cases j <;> simp [lightTime]
  · simpa [buttonTime] using h.1 0
  · exact fun n b h => hb h ▸ tick n
  · exact fun j l h => hl h ▸ by simp [lightTime]
  · exact fun n b h => hb h ▸ by simp [buttonTime]
  · exact fun j l h => hl h ▸ update j
  · rw [offeringTick_offeredOps]
    exact fun n b h => hb h ▸ tick n
  · rw [offeringTick_offeredOps]
    exact fun j l h => hl h ▸ by simp [lightTime]

/-- R8 and R224, as log entry 6 reads them: the subtraction of timestamps wraps. -/
theorem test_elapsed_wraps : elapsed 0x8000000000000000 1 = 0x7FFFFFFFFFFFFFFF ∧ elapsed 4 5 = -1 := by decide

theorem witness_PredicatesReadFreshEntry :
    (oneButton ⟨.otherUp, 5, true⟩).btn[0]? = some ⟨.otherUp, 5, true⟩ := rfl

theorem witness_GestureEventsNeedTheirEdge :
    (oneButton ⟨.clickIdle, 0, false⟩).btn[0]? = some ⟨.clickIdle, 0, false⟩ ∧
    ∃ t b', exec (.btnTick 0 false 350000) (oneButton ⟨.clickIdle, 0, false⟩) = .next t ∧ t.btn[0]? = some b' ∧
      b'.isSingleClick = true :=
  ⟨rfl, _, _, rfl, rfl, by decide⟩

theorem witness_GlitchRaisesNoEvent :
    State.reset.btn[0]? = some ⟨.idle, 0, false⟩ ∧
    ∀ now ∈ ([1000, 50999] : List (BitVec 64)), elapsed now 1000 < State.reset.cfg.debounceUs := by
  refine ⟨rfl, fun now h => ?_⟩
  obtain rfl | rfl : now = 1000 ∨ now = 50999 := by simpa using h
  all_goals decide

theorem witness_LightSetRecordsIntent :
    State.reset.light[0]? = some ⟨.off, false, 0, 0, 0, 0, false, false⟩ := rfl

theorem witness_LightMutatorsRecordIntent :
    (oneLight ⟨.on, false, 0, 0, 0, 0, false, true⟩).light[0]? = some ⟨.on, false, 0, 0, 0, 0, false, true⟩ ∧
    (oneLight ⟨.blink, false, 0, 9, 0, 0, true, true⟩).light[0]? = some ⟨.blink, false, 0, 9, 0, 0, true, true⟩ ∧
    0 ≤ (0 : BitVec 64).toInt := by
  decide

/-- The entry, the threshold of a blink on both sides, and the two edges and the end of a counted blink. -/
theorem witness_LightUpdateFollowsState :
    (oneLight ⟨.blink, false, 0, 100, 0, 0, false, false⟩).light[0]? =
      some ⟨.blink, false, 0, 100, 0, 0, false, false⟩ ∧
    elapsed 100 0 ≤ (100 : BitVec 64).toInt ∧ elapsed 101 0 > (100 : BitVec 64).toInt ∧
    (oneLight ⟨.blinkCount, false, 505, 100, 3, 2, true, true⟩).light[0]? =
      some ⟨.blinkCount, false, 505, 100, 3, 2, true, true⟩ ∧
    (2 : BitVec 32).toNat < (3 : BitVec 32).toNat ∧ elapsed 606 505 > (100 : BitVec 64).toInt ∧
    (oneLight ⟨.blinkCount, false, 606, 100, 3, 3, false, false⟩).light[0]? =
      some ⟨.blinkCount, false, 606, 100, 3, 3, false, false⟩ ∧
    (3 : BitVec 32).toNat ≤ (3 : BitVec 32).toNat ∧
    (oneLight ⟨.on, true, 0, 0, 0, 0, false, false⟩).light[0]? = some ⟨.on, true, 0, 0, 0, 0, false, false⟩ ∧
    (oneLight ⟨.blinkCount, true, 0, 0, 0, 0, true, true⟩).light[0]? =
      some ⟨.blinkCount, true, 0, 0, 0, 0, true, true⟩ := by
  decide

theorem witness_CountedBlinkEndsOff :
    0 < State.reset.light.length ∧ 0 ≤ (100 : BitVec 64).toInt ∧
    ([101, 202] : List (BitVec 64)).length = 2 * (1 : BitVec 32).toNat ∧
    ((0 : BitVec 64) :: [101, 202]).IsChain (fun a b => elapsed b a > (100 : BitVec 64).toInt) := by
  decide

theorem witness_PinAndChecksumStatusAreRead :
    State.reset.light[0]? = some ⟨.off, false, 0, 0, 0, 0, false, false⟩ ∧ State.reset.rxPhase ≠ .ready :=
  ⟨rfl, by decide⟩

end Sys2Proof.Tests
end

section
/-! The framing codec: the loops of rules R112 and R116 run by run, and the statements about runs and the round trip. -/

namespace Sys2Proof.Machine

open Sys2Proof

/-! ### The encoder's loop, one input byte at a time -/

/-- The end of the input: the code byte of the open run is written, where a run is open. -/
theorem encLoop_nil (d : Byte) (out : Bytes) (codep code : Nat) :
    encLoop d [] out codep code = if codep < out.length then out.set codep (BitVec.ofNat 8 code) else out := rfl

/-- A delimiter closes the open run and opens the next. -/
theorem encLoop_delimiter (d : Byte) (rest out : Bytes) (codep code : Nat) :
    encLoop d (d :: rest) out codep code =
      encLoop d rest (out.set codep (BitVec.ofNat 8 code) ++ [0x00]) out.length 1 := by
  simp [encLoop]

/-- A data byte that does not fill the open run is copied into it. -/
theorem encLoop_data {d b : Byte} (rest out : Bytes) (codep : Nat) {code : Nat} (hb : b ≠ d) (hc : code + 1 ≠ 0xFF) :
    encLoop d (b :: rest) out codep code = encLoop d rest (out ++ [b]) codep (code + 1) := by
  simp [encLoop, hb, hc]

/-- A data byte that fills the open run closes it, and opens the next only where the input goes on. -/
theorem encLoop_full {d b : Byte} (rest out : Bytes) (codep : Nat) {code : Nat} (hb : b ≠ d) (hc : code + 1 = 0xFF) :
    encLoop d (b :: rest) out codep code =
      encLoop d rest ((out ++ [b]).set codep 0xFF ++ if rest = [] then [] else [0x00]) (out ++ [b]).length 1 := by
  by_cases hr : rest = [] <;> simp [encLoop, hb, hc, hr]

/-- What stands before the open run is never written again: the loop acts on the output after it alone. -/
theorem encLoop_append_left (d : Byte) (pre rest out : Bytes) (codep code : Nat) :
    encLoop d rest (pre ++ out) (pre.length + codep) code = pre ++ encLoop d rest out codep code := by
  have set_after (o : Bytes) (p : Nat) (x : Byte) : (pre ++ o).set (pre.length + p) x = pre ++ o.set p x := by
    rw [List.set_append_right _ _ (Nat.le_add_right ..), Nat.add_sub_cancel_left]
  induction rest generalizing out codep code with
  | nil =>
    simp only [encLoop_nil, List.length_append, Nat.add_lt_add_iff_left, set_after]
    split <;> rfl
  | cons b rest ih =>
    by_cases hb : b = d
    · subst hb
      simp only [encLoop_delimiter, set_after, List.append_assoc, List.length_append, ih]
    · by_cases hc : code + 1 = 0xFF
      · simp only [encLoop_full _ _ _ hb hc, set_after, List.append_assoc, List.length_append, ih]
      · simp only [encLoop_data _ _ _ hb hc, List.append_assoc, ih]

/-- A run that is closed is output, and the loop goes on behind it as on a new input. -/
theorem encLoop_newRun (d : Byte) (pre rest : Bytes) :
    encLoop d rest (pre ++ [0x00]) pre.length 1 = pre ++ enc rest d :=
  encLoop_append_left d pre rest [0x00] 0 1

/-! ### The encoder on its open run -/

/-- The encoder with the data bytes `run` in its open run and `rest` still to come, as the loop of rule R112 stands with
nothing before that run but the placeholder of its code byte. -/
def encOpenRun (d : Byte) (run rest : Bytes) : Bytes := encLoop d rest (0x00 :: run) 0 (run.length + 1)

theorem enc_eq_encOpenRun (b : Bytes) (d : Byte) : enc b d = encOpenRun d [] b := rfl

/-- The input ends inside a run: the run is closed. -/
@[simp] theorem encOpenRun_nil (d : Byte) (run : Bytes) : encOpenRun d run [] = codeByte run.length :: run := by
  simp [encOpenRun, encLoop_nil, codeByte]

/-- A delimiter closes the run and opens an empty one (rule R111, event (a)). -/
theorem encOpenRun_delimiter (d : Byte) (run rest : Bytes) :
    encOpenRun d run (d :: rest) = codeByte run.length :: run ++ enc rest d :=
  (encLoop_delimiter ..).trans (encLoop_newRun d (codeByte run.length :: run) rest)

/-- A data byte before the 254th lengthens the run. -/
theorem encOpenRun_data {d b : Byte} (run rest : Bytes) (hb : b ≠ d) (h : run.length < 253) :
    encOpenRun d run (b :: rest) = encOpenRun d (run ++ [b]) rest := by
  rw [encOpenRun, encLoop_data _ _ _ hb (by omega), encOpenRun, List.length_append, List.cons_append]
  rfl

/-- The 254th data byte closes the run, and a new one is opened only where the input goes on (rule R111, event (b)). -/
theorem encOpenRun_full {d b : Byte} (run rest : Bytes) (hb : b ≠ d) (h : run.length = 253) :
    encOpenRun d run (b :: rest) = 0xFF :: (run ++ [b]) ++ if rest = [] then [] else enc rest d := by
  rw [encOpenRun, encLoop_full _ _ _ hb (by omega)]
  by_cases hr : rest = []
  · simp [hr, encLoop_nil]
  · simpa [hr] using encLoop_newRun d (0xFF :: (run ++ [b])) rest

/-! ### Whole runs -/

/-- Data bytes that still fit the run are taken into it. -/
theorem encOpenRun_append {d : Byte} (run data rest : Bytes) (hd : d ∉ data) (h : run.length + data.length ≤ 253) :
    encOpenRun d run (data ++ rest) = encOpenRun d (run ++ data) rest := by
  induction data generalizing run with
  | nil => simp
  | cons b data ih =>
    obtain ⟨hb, hdata⟩ : b ≠ d ∧ d ∉ data := by simpa [eq_comm] using hd
    rw [List.length_cons] at h
    rw [List.cons_append, encOpenRun_data run _ hb (by omega), ih _ hdata (by simp; omega), List.append_assoc,
      List.singleton_append]

/-- An input that opens with at most 253 data bytes goes on with these in the open run. -/
theorem enc_append {d : Byte} (run rest : Bytes) (hd : d ∉ run) (h : run.length ≤ 253) :
    enc (run ++ rest) d = encOpenRun d run rest := by
  simpa [enc_eq_encOpenRun] using encOpenRun_append [] run rest hd (by simpa using h)

/-- An input that opens with 254 data bytes is cut behind them. -/
theorem enc_fullRun_append {d : Byte} (run rest : Bytes) (hd : d ∉ run) (h : run.length = 254) :
    enc (run ++ rest) d = 0xFF :: run ++ if rest = [] then [] else enc rest d := by
  obtain ⟨init, b, rfl⟩ := (List.eq_nil_or_concat' run).resolve_left (by rintro rfl; simp at h)
  obtain ⟨hinit, hb⟩ : d ∉ init ∧ b ≠ d := by simpa [eq_comm] using hd
  have hlen : init.length = 253 := by simpa using h
  rw [List.append_assoc, enc_append init _ hinit hlen.le, List.singleton_append, encOpenRun_full init rest hb hlen]

/-- Settles O18: each clause is what the encoder does with the run as its open run, at the event that ends it. -/
theorem encoderCutsRuns : Obligations.EncoderCutsRuns := by
  intro d run rest hd
  refine ⟨fun h => ?_, fun h => ?_, fun h => ?_, fun h hr => ?_⟩
  · simpa [codeByte] using enc_append run [] hd h
  · exact (enc_append run (d :: rest) hd h).trans (encOpenRun_delimiter d run rest)
  · simpa using enc_fullRun_append run [] hd h
  · simpa [hr] using enc_fullRun_append run rest hd h

/-! ### The decoder's loop over a run -/

/-- What the decoder inserts at a code byte behind the code byte `code`: the delimiter, but at the start and behind a
run of 254 (rule R117). -/
def separator (d code : Byte) : Bytes := if code = 0xFF then [] else [d]

/-- The data bytes of a run are copied. -/
theorem decLoop_run (d : Byte) (run rest : Bytes) (code : Byte) :
    decLoop d (run ++ rest) code run.length = run ++ decLoop d rest code 0 := by
  induction run with
  | nil => rfl
  | cons b run ih => simp [decLoop, ih]

/-- A code byte is one more than the length of its run. -/
theorem toNat_codeByte {n : Nat} (h : n ≤ 254) : (codeByte n).toNat = n + 1 := by
  rw [codeByte, BitVec.toNat_ofNat]
  omega

/-- A code byte other than `0x00` opens a run, behind what it inserts. -/
theorem decLoop_code (d : Byte) {b : Byte} (rest : Bytes) (code : Byte) (hb : b ≠ 0) :
    decLoop d (b :: rest) code 0 = separator d code ++ decLoop d rest b (b.toNat - 1) := by
  rw [decLoop, if_neg (not_not_intro rfl), if_neg hb, separator]
  by_cases hc : code = 0xFF
  · rw [if_pos hc, if_neg fun h => h.2 hc]
  · rw [if_neg hc, if_pos ⟨hb, hc⟩]

/-- A run whose code byte tells its length is copied behind what its code byte inserts. -/
theorem decLoop_codeByte_run (d : Byte) (run rest : Bytes) (code : Byte) (h : run.length ≤ 254) :
    decLoop d (codeByte run.length :: run ++ rest) code 0 =
      separator d code ++ run ++ decLoop d rest (codeByte run.length) 0 := by
  have hn := toNat_codeByte h
  have h0 : codeByte run.length ≠ 0 := fun he => by simp [he] at hn
  rw [List.cons_append, decLoop_code d _ code h0, hn, Nat.add_sub_cancel, decLoop_run, List.append_assoc]

/-- The code byte of a run of at most 253 bytes calls for a delimiter behind the run. -/
theorem separator_codeByte (d : Byte) {n : Nat} (h : n ≤ 253) : separator d (codeByte n) = [d] := by
  refine if_neg fun he => ?_
  have hn := toNat_codeByte (n := n) (by omega)
  simp [he] at hn
  omega

/-- Decoding undoes the encoder from within any open run, behind any code byte: an induction over the input still to come
along the encoder's events. -/
theorem decLoop_encOpenRun (d : Byte) (run rest : Bytes) (code : Byte) (h : run.length ≤ 253) :
    decLoop d (encOpenRun d run rest) code 0 = separator d code ++ run ++ rest := by
  induction rest generalizing run code with
  | nil =>
    simpa [decLoop] using decLoop_codeByte_run d run [] code (by omega)
  | cons b rest ih =>
    have decNewRun (code : Byte) : decLoop d (enc rest d) code 0 = separator d code ++ rest := by
      simpa [enc_eq_encOpenRun] using ih [] code (by simp)
    by_cases hb : b = d
    · subst hb
      rw [encOpenRun_delimiter b run rest, decLoop_codeByte_run b run _ code (by omega), decNewRun,
        separator_codeByte b h, List.singleton_append]
    · by_cases hlt : run.length < 253
      · rw [encOpenRun_data run rest hb hlt, ih _ _ (by simp; omega)]
        simp
      · have hfull : (run ++ [b]).length = 254 := by simp; omega
        have hcode : codeByte (run ++ [b]).length = 0xFF := by rw [hfull]; rfl
        rw [encOpenRun_full run rest hb (by omega), ← hcode,
          decLoop_codeByte_run d (run ++ [b]) _ code hfull.le, hcode]
        by_cases hr : rest = []
        · simp [hr, decLoop]
        · simp [hr, decNewRun, separator]

/-- The round-trip law (rule R121), for buffers of every length. -/
theorem dec_enc (b : Bytes) (d : Byte) : dec (enc b d) d = b := by
  simpa [dec, enc_eq_encOpenRun, separator] using decLoop_encOpenRun d [] b 0xFF (by simp)

/-! ### The operations -/

/-- `DEC` on a buffer that fits. -/
theorem exec_dec {s : State} {b : Bytes} (d : Byte) (h : b.length ≤ s.cfg.maxBuf) :
    exec (.dec b d) s = .next { s with ret := .bytes (dec b d) } :=
  withBuffer_of_le h

/-- `ENC` on a buffer that fits and whose encoded form does. -/
theorem exec_enc {s : State} {b : Bytes} {d : Byte} (h : b.length ≤ s.cfg.maxBuf) (ho : (enc b d).length ≤ s.cfg.maxBuf) :
    exec (.enc b d) s = .next { s with ret := .bytes (enc b d) } :=
  (withBuffer_of_le h).trans (withBuffer_of_le ho)

/-- Settles O17: the round trip `dec_enc`, and the two operations where their buffers fit. -/
theorem decodeInvertsStuffing : Obligations.DecodeInvertsStuffing := by
  refine ⟨dec_enc, fun s b d h => exec_dec d h, fun s b d h ho => ⟨exec_enc h ho, ?_⟩, fun d => ⟨?_, ?_⟩⟩
  · rw [exec_dec d ho, dec_enc]
  · rfl
  · rfl

end Sys2Proof.Machine
end

section
/-! The reader: what it does with a byte in each phase (rules R164 to R166), and a whole envelope, byte by byte. -/

namespace Sys2Proof.Machine

open Sys2Proof

/-! ### One byte in each phase -/

theorem readerByte_start {s : State} (h : s.rxPhase = .scan) : s.readerByte 0x4E = { s with rxPhase := .pid } := by
  simp [State.readerByte, h, startByte]

theorem readerByte_pid {s : State} (b : Byte) (h : s.rxPhase = .pid) :
    s.readerByte b = { s with rxPid := b, rxPhase := .type } := by simp only [State.readerByte, h]

theorem readerByte_type {s : State} (b : Byte) (h : s.rxPhase = .type) :
    s.readerByte b = { s with rxType := b, rxPhase := .len } := by simp only [State.readerByte, h]

theorem readerByte_len {s : State} (b : Byte) (h : s.rxPhase = .len) :
    s.readerByte b = { s with rxLen := b, rxPayload := [], rxPhase := if b = 0 then .ck0 else .payload } := by
  simp only [State.readerByte, h]

theorem readerByte_payload {s : State} (b : Byte) (h : s.rxPhase = .payload) :
    s.readerByte b =
      { s with
        rxPayload := s.rxPayload ++ [b]
        rxPhase := if s.rxPayload.length + 1 = s.rxLen.toNat then .ck0 else .payload } := by
  simp only [State.readerByte, h]

theorem readerByte_ck0 {s : State} (b : Byte) (h : s.rxPhase = .ck0) :
    s.readerByte b = { s with rxCk0 := b, rxPhase := .ck1 } := by simp only [State.readerByte, h]

theorem readerByte_ck1 {s : State} (b : Byte) (h : s.rxPhase = .ck1) :
    s.readerByte b = { s with rxCk1 := b, rxPhase := .ready } := by simp only [State.readerByte, h]

theorem readerByte_ready {s : State} (b : Byte) (h : s.rxPhase = .ready) : s.readerByte b = s := by
  simp only [State.readerByte, h]

/-! ### Several bytes -/

/-- A held packet stays held, whatever bytes follow. -/
theorem foldl_readerByte_ready {s : State} (bs : Bytes) (h : s.rxPhase = .ready) : bs.foldl State.readerByte s = s := by
  induction bs with
  | nil => rfl
  | cons b bs ih => rw [List.foldl_cons, readerByte_ready b h, ih]

/-- The reader does not look at what the last operation returned. -/
theorem readerByte_ret (s : State) (r : Ret) (b : Byte) :
    State.readerByte { s with ret := r } b = { s.readerByte b with ret := r } := by
  cases h : s.rxPhase
  case scan =>
    simp only [State.readerByte, h]
    split <;> simp only [h]
  all_goals simp only [State.readerByte, h]

theorem foldl_readerByte_ret (s : State) (r : Ret) (bs : Bytes) :
    bs.foldl State.readerByte { s with ret := r } = { bs.foldl State.readerByte s with ret := r } :=
  List.foldl_hom (fun s : State => { s with ret := r }) fun s b => readerByte_ret s r b

/-- `RX.BYTE` on a raw link hands its byte to the reader. -/
theorem exec_rxByte {s : State} (b : Byte) (hraw : s.cfg.linkMode = .raw) (h : s.rxPhase ≠ .ready) :
    exec (.rxByte b) s = .next { s.readerByte b with ret := .none } :=
  (inLinkMode_of_eq hraw).trans (whileReading_of_ne h)

/-- Bytes that come one per `RX.BYTE` are taken as the reader takes them, where no packet is held before the last: a packet
held earlier would still be held then. -/
theorem runOps_rxByte {s : State} (bs : Bytes) (b : Byte) (hraw : s.cfg.linkMode = .raw)
    (h : (bs.foldl State.readerByte s).rxPhase ≠ .ready) :
    runOps ((bs ++ [b]).map .rxByte) s = .next { (bs ++ [b]).foldl State.readerByte s with ret := .none } := by
  have hs : s.rxPhase ≠ .ready := fun hs => h (by rwa [foldl_readerByte_ready bs hs])
  induction bs generalizing s with
  | nil => simp [runOps, exec_rxByte b hraw hs]
  | cons a bs ih =>
    have hnext := foldl_readerByte_ret (s.readerByte a) .none
    have hlater : (bs.foldl State.readerByte { s.readerByte a with ret := .none }).rxPhase ≠ .ready := by
      rw [hnext]
      exact h
    have hfirst : (s.readerByte a).rxPhase ≠ .ready := fun ha =>
      h (by rwa [List.foldl_cons, foldl_readerByte_ready bs ha])
    have hcfg : (s.readerByte a).cfg = s.cfg := by rw [readerByte_frame]
    simp only [List.cons_append, List.map_cons, List.foldl_cons, runOps, exec_rxByte a hraw hs]
    rw [ih (by rw [hcfg, hraw]) hlater hfirst, hnext]

/-! ### A whole envelope -/

/-- The reader takes `START`, the packet id and the type. -/
theorem foldl_readerByte_header {s : State} (pid ty : Byte) (h : s.rxPhase = .scan) :
    [0x4E, pid, ty].foldl State.readerByte s = { s with rxPid := pid, rxType := ty, rxPhase := .len } := by
  simp only [List.foldl_cons, List.foldl_nil, readerByte_start h, readerByte_pid, readerByte_type]

/-- The payload bytes still to come are taken, and the last of them ends the payload: an induction over them. -/
theorem foldl_readerByte_payload {s : State} (b : Byte) (rest : Bytes) (h : s.rxPhase = .payload)
    (hlen : s.rxPayload.length + (b :: rest).length = s.rxLen.toNat) :
    (b :: rest).foldl State.readerByte s = { s with rxPayload := s.rxPayload ++ b :: rest, rxPhase := .ck0 } := by
  rw [List.foldl_cons, readerByte_payload b h]
  induction rest generalizing s b with
  | nil => rw [if_pos (by simpa using hlen), List.foldl_nil]
  | cons c rest ih =>
    simp only [List.length_cons] at hlen
    rw [if_neg (by omega), List.foldl_cons, readerByte_payload c rfl, ih c rfl (by simp; omega)]
    simp

/-- The `len` byte and exactly as many payload bytes as it tells, none included (rule R165). -/
theorem foldl_readerByte_len_payload {s : State} (payload : Bytes) (h : s.rxPhase = .len) (hlen : payload.length ≤ 255) :
    (BitVec.ofNat 8 payload.length :: payload).foldl State.readerByte s =
      { s with rxLen := BitVec.ofNat 8 payload.length, rxPayload := payload, rxPhase := .ck0 } := by
  have hn : (BitVec.ofNat 8 payload.length).toNat = payload.length := Nat.mod_eq_of_lt (Nat.lt_succ_of_le hlen)
  rw [List.foldl_cons, readerByte_len _ h]
  cases payload with
  | nil => rfl
  | cons b rest =>
    have hne : BitVec.ofNat 8 (b :: rest).length ≠ 0 := fun h0 => by rw [h0] at hn; simp at hn
    rw [if_neg hne, foldl_readerByte_payload b rest]
    · rfl
    · rfl
    · exact (Nat.zero_add _).trans hn.symm

/-- Before the last byte of an envelope the reader waits for just that byte. -/
theorem foldl_readerByte_allButLast {s : State} (pid ty ck0 : Byte) (payload : Bytes) (h : s.rxPhase = .scan)
    (hlen : payload.length ≤ 255) :
    ([0x4E, pid, ty, BitVec.ofNat 8 payload.length] ++ payload ++ [ck0]).foldl State.readerByte s =
      { s.holding pid ty payload ck0 s.rxCk1 with rxPhase := .ck1 } := by
  have hsplit : [0x4E, pid, ty, BitVec.ofNat 8 payload.length] ++ payload ++ [ck0] =
      [0x4E, pid, ty] ++ (BitVec.ofNat 8 payload.length :: payload) ++ [ck0] := by simp
  rw [hsplit, List.foldl_append, List.foldl_append, foldl_readerByte_header pid ty h,
    foldl_readerByte_len_payload payload rfl hlen, List.foldl_cons, readerByte_ck0 ck0 rfl]
  rfl

theorem envelopeBytes_eq_concat (pid ty : Byte) (payload : Bytes) (ck0 ck1 : Byte) :
    envelopeBytes pid ty payload ck0 ck1 =
      [0x4E, pid, ty, BitVec.ofNat 8 payload.length] ++ payload ++ [ck0] ++ [ck1] := by
  simp [envelopeBytes, startByte]

/-- The last byte completes the envelope, and the reader holds it. -/
theorem foldl_readerByte_envelope {s : State} (pid ty : Byte) (payload : Bytes) (ck0 ck1 : Byte) (h : s.rxPhase = .scan)
    (hlen : payload.length ≤ 255) :
    (envelopeBytes pid ty payload ck0 ck1).foldl State.readerByte s = s.holding pid ty payload ck0 ck1 := by
  rw [envelopeBytes_eq_concat, List.foldl_append, foldl_readerByte_allButLast pid ty ck0 payload h hlen, List.foldl_cons,
    readerByte_ck1 ck1 rfl]
  rfl

/-- On a raw link, one `RX.BYTE` per byte does the same: before the last byte the reader is in `Ck1`, so no operation finds
a packet held. -/
theorem runOps_rxByte_envelope {s : State} (pid ty : Byte) (payload : Bytes) (ck0 ck1 : Byte)
    (hraw : s.cfg.linkMode = .raw) (h : s.rxPhase = .scan) (hlen : payload.length ≤ 255) :
    runOps ((envelopeBytes pid ty payload ck0 ck1).map .rxByte) s =
      .next { s.holding pid ty payload ck0 ck1 with ret := .none } := by
  rw [← foldl_readerByte_envelope pid ty payload ck0 ck1 h hlen, envelopeBytes_eq_concat]
  refine runOps_rxByte _ ck1 hraw ?_
  rw [foldl_readerByte_allButLast pid ty ck0 payload h hlen]
  simp

/-- Settles O32: the reader on the bytes of an envelope, and `RX.BYTE` on each of them. -/
theorem readerTakesWholeEnvelope : Obligations.ReaderTakesWholeEnvelope := fun _ pid ty ck0 ck1 payload hscan hlen =>
  ⟨foldl_readerByte_envelope pid ty payload ck0 ck1 hscan hlen,
    fun hraw => runOps_rxByte_envelope pid ty payload ck0 ck1 hraw hscan hlen⟩

end Sys2Proof.Machine
end

section
/-! The bus router: what a received message does (rules R202 to R205), and what `DEV.GET` reads back (rule R208). -/

namespace Sys2Proof.Machine

open Sys2Proof

/-! ### Messages and the records they carry -/

/-- Only five bytes make a record (rules R89 and R204). -/
theorem statusRecord_of_length_ne {payload : Bytes} (h : payload.length ≠ 5) : statusRecord payload = none := by
  unfold statusRecord
  split
  · exact absurd rfl h
  · rfl

/-- On a status channel, the record of a message is the update of the channel's device. -/
@[simp] theorem statusUpdate_status (k : Nat) (payload : Bytes) :
    statusUpdate (some (k, .status)) payload = (statusRecord payload).map fun d => (k, d) := rfl

/-- A message that carries an update writes that record and is routed as `updated`. -/
theorem receive_of_update {s : State} {id : BitVec 32} {payload : Bytes} {k : Nat} {d : Device}
    (h : statusUpdate (matchId s.cfg id) payload = some (k, d)) :
    s.receive id payload =
      { s with dev := s.dev.set k d, route := s.route ++ [⟨id, payload, matchId s.cfg id, true⟩] } := by
  simp only [State.receive, h]
  rfl

/-- A message that carries no update is only routed. -/
theorem receive_of_no_update {s : State} {id : BitVec 32} {payload : Bytes}
    (h : statusUpdate (matchId s.cfg id) payload = none) :
    s.receive id payload = { s with route := s.route ++ [⟨id, payload, matchId s.cfg id, false⟩] } := by
  simp only [State.receive, h]

/-- Five bytes on the status channel of device `k` are its new record (rule R204). -/
theorem receive_status_record {s : State} {k : Nat} {base : BitVec 32} (hc : s.cfg.ok) (hk : s.cfg.baseIds[k]? = some base)
    (b0 b1 b2 b3 b4 : Byte) :
    s.receive (base + 2) [b0, b1, b2, b3, b4] =
      { s with
        dev := s.dev.set k ⟨b0, b1, b2, b3, b4⟩
        route := s.route ++ [⟨base + 2, [b0, b1, b2, b3, b4], some (k, .status), true⟩] } := by
  have hid : matchId s.cfg (base + 2) = some (k, .status) := matchId_channelId hc .status hk
  rw [receive_of_update (k := k) (d := ⟨b0, b1, b2, b3, b4⟩) (by rw [hid]; rfl), hid]

/-- A message of another length on the status channel of device `k` is only routed (rule R204). -/
theorem receive_status_other {s : State} {k : Nat} {base : BitVec 32} (hc : s.cfg.ok) (hk : s.cfg.baseIds[k]? = some base)
    {payload : Bytes} (h : payload.length ≠ 5) :
    s.receive (base + 2) payload =
      { s with route := s.route ++ [⟨base + 2, payload, some (k, .status), false⟩] } := by
  have hid : matchId s.cfg (base + 2) = some (k, .status) := matchId_channelId hc .status hk
  rw [receive_of_no_update (by rw [hid, statusUpdate_status, statusRecord_of_length_ne h]; rfl), hid]

/-! ### The operations -/

/-- `BUS.RECV` on a message that the bus can carry (rule R202). -/
theorem exec_busRecv {s : State} (id : BitVec 32) {payload : Bytes} (h : payload.length ≤ s.cfg.busMaxPayload) :
    exec (.busRecv id payload) s = .next { s.receive id payload with ret := .none } :=
  if_neg (Nat.not_lt.mpr h)

/-- `BUS.RECV` completes only on a message that the bus can carry (rule R202). -/
theorem exec_busRecv_eq_next {s t : State} {id : BitVec 32} {payload : Bytes} :
    exec (.busRecv id payload) s = .next t ↔
      payload.length ≤ s.cfg.busMaxPayload ∧ t = { s.receive id payload with ret := .none } := by
  by_cases h : payload.length ≤ s.cfg.busMaxPayload
  · rw [exec_busRecv id h, Host.Outcome.next.injEq]
    exact ⟨fun ht => ⟨h, ht.symm⟩, fun ht => ht.2.symm⟩
  · have hrefused : exec (.busRecv id payload) s = .refused .busPayloadTooLong := if_pos (Nat.not_le.mp h)
    simp [hrefused, h]

/-- `DEV.GET` on a device of the block (rule R208). -/
theorem exec_devGet_some {s : State} {k : Nat} {d : Device} (h : s.dev[k]? = some d) :
    exec (.devGet k) s = .next { s with ret := .device d } := by
  change execDevGet k s = _
  simp only [execDevGet, h, returns_eq]

/-- `DEV.GET` beyond the last device (rules R207 and R208). -/
theorem exec_devGet_outOfRange {s : State} {k : Nat} (h : s.dev.length ≤ k) :
    exec (.devGet k) s = .next { s with ret := .err s.cfg.eInvalidDevice } := by
  change execDevGet k s = _
  simp only [execDevGet, List.getElem?_eq_none h, State.returnErr, returns_eq]

/-! ### The statements -/

/-- Settles O45: the reception of a record and of a message of another length. -/
theorem statusMessageUpdatesRecord : Obligations.StatusMessageUpdatesRecord := by
  intro s k base hc hk
  refine ⟨fun b0 b1 b2 b3 b4 h5 => ?_, fun payload hfits hlen => ?_⟩
  · refine ⟨s.route ++ [⟨base + 2, [b0, b1, b2, b3, b4], some (k, .status), true⟩], ?_⟩
    rw [exec_busRecv (payload := [b0, b1, b2, b3, b4]) _ h5, receive_status_record hc hk]
  · refine ⟨s.route ++ [⟨base + 2, payload, some (k, .status), false⟩], ?_, ?_⟩
    · rw [exec_busRecv _ hfits, receive_status_other hc hk hlen]
    · rw [List.getLast?_concat, Option.map_some]

/-- Settles O48: the read in and out of range, and the read of the record that a status message has just written. -/
theorem devGetReadsWholeRecord : Obligations.DevGetReadsWholeRecord := by
  intro s k hc hdev
  refine ⟨fun hk => exec_devGet_outOfRange (hdev ▸ hk), fun hk => ?_, fun base b0 b1 b2 b3 b4 t hbase hrecv => ?_⟩
  · have hget := List.getElem?_eq_getElem (hdev ▸ hk : k < s.dev.length)
    exact ⟨_, hget, exec_devGet_some hget⟩
  · obtain ⟨_, rfl⟩ := exec_busRecv_eq_next.mp hrecv
    have hk : k < s.dev.length := by
      obtain ⟨hlt, _⟩ := List.getElem?_eq_some_iff.mp hbase
      exact hdev ▸ hlt
    refine exec_devGet_some ?_
    rw [receive_status_record hc hbase]
    exact List.getElem?_set_self hk

end Sys2Proof.Machine
end

section
/-! The status light: what a mutator and an update write (rules R251 and R257), and `LIGHT.SET` with the update behind it
(rule R258). -/

namespace Sys2Proof.Machine

open Sys2Proof

/-! ### The operations -/

/-- `LIGHT.SET` on a light of the block (rule R258). -/
theorem exec_lightSet {s : State} {j : Nat} {l : Light} (v : Bool) (h : s.light[j]? = some l) :
    exec (.lightSet j v) s =
      .next { s with light := s.light.set j (l.intend (if v then .on else .off)), ret := .none } :=
  withLight_some h

/-- `LIGHT.UPDATE` on a light of the block (rule R251). -/
theorem exec_lightUpdate {s : State} {j : Nat} {l : Light} (now : BitVec 64) (h : s.light[j]? = some l) :
    exec (.lightUpdate j now) s = .next { s with light := s.light.set j (l.update now), ret := .none } :=
  withLight_some h

/-- A mutator's write and the update behind it come to one write of the light: nothing but the light and what was returned
is touched between them. -/
theorem exec_lightUpdate_of_written {s : State} {j : Nat} {l : Light} (l' : Light) (now : BitVec 64)
    (h : s.light[j]? = some l) :
    exec (.lightUpdate j now) { s with light := s.light.set j l', ret := .none } =
      .next { s with light := s.light.set j (l'.update now), ret := .none } := by
  obtain ⟨hj, _⟩ := List.getElem?_eq_some_iff.mp h
  rw [exec_lightUpdate now (List.getElem?_set_self hj)]
  simp only [List.set_set]

/-! ### The entry tick -/

/-- The update behind a mutator is the entry tick, whatever the light did before (rules R252 and R257). -/
@[simp] theorem Light.update_intend (l : Light) (st : LightState) (now : BitVec 64) :
    (l.intend st).update now = (l.intend st).enter now := rfl

/-- On entry to a steady state the pin takes the level asked for (rule R252). -/
theorem Light.enter_intend_steady (l : Light) (v : Bool) (now : BitVec 64) :
    (l.intend (if v then .on else .off)).enter now =
      { l with state := if v then .on else .off, stateChanged := false, out := v } := by
  cases v with
  | false => rfl
  | true => rfl

/-! ### The statement -/

/-- Settles O56: the write of `LIGHT.SET`, and the entry tick of the update that finds it. -/
theorem lightSetRecordsIntent : Obligations.LightSetRecordsIntent := by
  intro s j l v now h
  refine ⟨exec_lightSet v h, ?_⟩
  simp only [runOps, exec_lightSet v h, exec_lightUpdate_of_written _ now h, Light.update_intend,
    Light.enter_intend_steady]

end Sys2Proof.Machine
end

section
/-! Words: every instruction is read back from its word (rules R82 to R98), and which select codes are operations. -/

namespace Sys2Proof

open Machine

/-! ### Codes -/

/-- The five packet types are told apart by their type bytes, where these are distinct (rules R7 and R90). -/
theorem packetKind_typeCodes {c : Config} (h : c.typeCodes.Nodup) :
    packetKind c c.tIdentify = .identify ∧ packetKind c c.tStatus = .status ∧ packetKind c c.tCommand = .command ∧
      packetKind c c.tPing = .ping ∧ packetKind c c.tResponse = .response := by
  simp only [Config.typeCodes, List.nodup_cons, List.mem_cons, List.not_mem_nil, or_false, not_or] at h
  obtain ⟨⟨h1, h2, h3, h4⟩, ⟨h5, h6, h7⟩, ⟨h8, h9⟩, h10, _⟩ := h
  simp [packetKind, Ne.symm h1, Ne.symm h2, Ne.symm h3, Ne.symm h4, Ne.symm h5, Ne.symm h6, Ne.symm h7, Ne.symm h8,
    Ne.symm h9, Ne.symm h10]

/-- Any other type byte is of the unknown type (rule R179). -/
theorem packetKind_of_not_mem {c : Config} {ty : Byte} (h : ty ∉ c.typeCodes) : packetKind c ty = .unknown := by
  simp only [Config.typeCodes, List.mem_cons, List.not_mem_nil, or_false, not_or] at h
  simp [packetKind, h]

/-- The six error codes are told apart, where they are distinct (rules R7 and R91). -/
theorem decodeError_errorCodes {c : Config} (h : c.errorCodes.Nodup) :
    decodeError c c.eSuccess = some .eSuccess ∧ decodeError c c.eInvalidPacketType = some .eInvalidPacketType ∧
      decodeError c c.eInvalidFunction = some .eInvalidFunction ∧
      decodeError c c.eInsufficientParams = some .eInsufficientParams ∧
      decodeError c c.eInvalidDevice = some .eInvalidDevice ∧ decodeError c c.eUnknown = some .eUnknown := by
  simp only [Config.errorCodes, List.nodup_cons, List.mem_cons, List.not_mem_nil, or_false, not_or] at h
  obtain ⟨⟨h1, h2, h3, h4, h5⟩, ⟨h6, h7, h8, h9⟩, ⟨h10, h11, h12⟩, ⟨h13, h14⟩, h15, _⟩ := h
  simp [decodeError, Ne.symm h1, Ne.symm h2, Ne.symm h3, Ne.symm h4, Ne.symm h5, Ne.symm h6, Ne.symm h7, Ne.symm h8,
    Ne.symm h9, Ne.symm h10, Ne.symm h11, Ne.symm h12, Ne.symm h13, Ne.symm h14, Ne.symm h15]

/-- The row of a message on a channel. -/
def channelInstr : Channel → Nat → Bytes → Instr
  | .comm => .chComm
  | .control => .chControl
  | .status => .chStatus
  | .misc => .chMisc

/-- The row of an id of a device's channel is that channel's (rule R203). -/
theorem decodeChannel_channelId {c : Config} (hc : c.ok) {k : Nat} {base : BitVec 32} (hk : c.baseIds[k]? = some base)
    (ch : Channel) (payload : Bytes) :
    decodeChannel c (channelId base ch) payload = some (channelInstr ch k payload) := by
  rw [decodeChannel, matchId_channelId hc ch hk]
  cases ch <;> rfl

/-! ### Words of each format -/

theorem withNum_leBytes_end (n v : Nat) (f : Nat → Bytes → Option (Instr × Bytes)) (h : v < 256 ^ n) :
    withNum n (leBytes n v) f = f v [] := by
  simpa using withNum_leBytes n v [] f h

theorem withSeq_seqBytes_end (bs : Bytes) (f : Bytes → Bytes → Option (Instr × Bytes)) (h : bs.length < 2 ^ 32) :
    withSeq (seqBytes bs) f = f bs [] := by
  simpa using withSeq_seqBytes bs [] f h

/-- A word whose format's reader uses it up is that instruction. -/
theorem decode_of_decodePrefix {c : Config} {o : Offer} {i : Instr} (h : decodePrefix c o.fmt o.bytes = some (i, [])) :
    decode c o = some i := by
  simp only [decode, h]

/-- A word of the operation-select format. -/
theorem decode_opWord {c : Config} {op : Byte} {operands : Bytes} {i : Instr}
    (h : decodeOp op.toNat operands = some (i, [])) : decode c (opWord op operands) = some i :=
  decode_of_decodePrefix h

/-- The word of an envelope. -/
theorem decode_envelope (c : Config) (pid ty ck0 ck1 : Byte) {payload : Bytes} (h : payload.length ≤ 255) :
    decode c ⟨.envelope, envelopeBytes pid ty payload ck0 ck1⟩ = some (envelopeInstr c ty pid payload ck0 ck1) :=
  decode_of_decodePrefix (decodeEnvelope_envelopeBytes c pid ty ck0 ck1 payload h)

/-- The word of an error code. -/
theorem decode_errorCode {c : Config} {e : Byte} {i : Instr} (h : decodeError c e = some i) :
    decode c ⟨.errorCode, [e]⟩ = some i :=
  decode_of_decodePrefix (by simp only [decodePrefix, withByte_cons, h, Option.map_some])

/-- The word of a message on a device's channel. -/
theorem decode_channel {c : Config} (hc : c.ok) {k : Nat} (hk : k < c.numDevices) (ch : Channel) {payload : Bytes}
    (h : payload.length < 2 ^ 32) :
    decode c ⟨.channel, channelBytes c k ch payload⟩ = some (channelInstr ch k payload) := by
  have hbase : c.baseIds[k]? = some (baseId c k) := by
    rw [baseId, List.getD_eq_getElem?_getD, List.getElem?_eq_getElem hk, Option.getD_some]
  have hid : (channelId (baseId c k) ch).toNat < 256 ^ 4 := (channelId (baseId c k) ch).isLt
  refine decode_of_decodePrefix ?_
  simp only [decodePrefix, channelBytes, withNum_leBytes _ _ _ _ hid, withSeq_seqBytes_end _ _ h, BitVec.ofNat_toNat,
    BitVec.setWidth_eq, decodeChannel_channelId hc hbase, Option.map_some]

/-- Settles O1, row by row: the fields of an operation's word are read back one after the other, the code of a wire format
leads back to its row. -/
theorem decodeInvertsEncode : Obligations.DecodeInvertsEncode := by
  intro c hc i hwf
  obtain ⟨htypes, hcodes, _⟩ := id hc
  obtain ⟨kIdentify, kStatus, kCommand, kPing, kResponse⟩ := packetKind_typeCodes htypes
  obtain ⟨e1, e2, e3, e4, e5, e6⟩ := decodeError_errorCodes hcodes
  have word32 (v : BitVec 32) : v.toNat < 4294967296 := v.isLt
  have word64 (v : BitVec 64) : v.toNat < 18446744073709551616 := v.isLt
  cases i
  case stuffBegin | stuffByte | stuffEnd | unstuffBegin | unstuffByte | unstuffEnd | ckReset | ckByte | ckRead
    | ckCheckbytes | rxByte | rxFrameEnd | pktDispatch | pktCkstat | linkRxbyte | codeStop | codeFullrun | start => rfl
  case pktIdentify | pktStatus | pktCommand | pktPing | pktResponse =>
    rw [encode, decode_envelope _ _ _ _ _ (of_decide_eq_true hwf), envelopeInstr]
    simp only [kIdentify, kStatus, kCommand, kPing, kResponse]
  case pktUnknown =>
    obtain ⟨hlen, hty⟩ := Bool.and_eq_true_iff.mp hwf
    rw [encode, decode_envelope _ _ _ _ _ (of_decide_eq_true hlen), envelopeInstr,
      packetKind_of_not_mem (of_decide_eq_true hty)]
  case eSuccess => exact decode_errorCode e1
  case eInvalidPacketType => exact decode_errorCode e2
  case eInvalidFunction => exact decode_errorCode e3
  case eInsufficientParams => exact decode_errorCode e4
  case eInvalidDevice => exact decode_errorCode e5
  case eUnknown => exact decode_errorCode e6
  case chComm | chControl | chStatus | chMisc =>
    obtain ⟨hlen, hk⟩ := Bool.and_eq_true_iff.mp hwf
    exact decode_channel hc (of_decide_eq_true hk) _ (of_decide_eq_true hlen)
  case codeRun b =>
    obtain ⟨h0, hF⟩ : b ≠ 0x00 ∧ b ≠ 0xFF := of_decide_eq_true hwf
    refine decode_of_decodePrefix ?_
    simp only [encode, decodePrefix, withByte_cons, decodeCode, if_neg h0, if_neg hF]
  all_goals
    simp only [WellFormed, Bool.and_eq_true, decide_eq_true_eq, Nat.reducePow] at hwf
    refine decode_opWord ?_
    simp [decodeOp, withByte_cons, withNum_leBytes, withNum_leBytes_end, withSeq_seqBytes, withSeq_seqBytes_end,
      withBool_boolByte, word32, word64, hwf]

/-- Settles O2, word by word. -/
theorem writtenWordsDecode : Obligations.WrittenWordsDecode := by
  refine ⟨?_, ?_, ?_, ?_, ?_, ?_, ?_, ?_, ?_, ?_, ?_⟩ <;> decide

/-! ### The select codes (rule R96) -/

/-- How many operations each unit has (rule R96). -/
abbrev unitSizes : List Nat := [9, 7, 6, 4, 7, 7, 0, 0]

/-- How many operand bytes an operation reads where all of them are zero, by its unit and its number in the unit. -/
def zeroOperands (op : Nat) : Nat :=
  ([[5, 5, 8, 1, 1, 0, 1, 1, 0], [4, 4, 4, 0, 1, 0, 0], [1, 0, 0, 6, 0, 1], [8, 5, 4, 5], [13, 4, 4, 4, 4, 4, 4],
    [12, 5, 4, 12, 12, 16, 4]].getD (op / 32) []).getD (op % 32) 0

/-- A select code past the operations of its unit begins no word (rule R98). -/
theorem decodeOp_eq_none {op : Nat} (h : unitSizes.getD (op / 32) 0 ≤ op % 32) (operands : Bytes) :
    decodeOp op operands = none := by
  unfold decodeOp
  split
  case h_41 => rfl
  all_goals exact absurd h (by decide)

/-- Each select code of a unit begins a word, as that with all operand bytes zero. -/
theorem decodeOp_zeros : ∀ op : Byte, op.toNat % 32 < unitSizes.getD (op.toNat / 32) 0 →
    (decodeOp op.toNat (List.replicate (zeroOperands op.toNat) 0)).map Prod.snd = some [] := by
  decide

/-- Settles O3: a code of no unit is not decoded, so the step refuses it, and the other forty begin a word each. -/
theorem onlyFortyOpselsAreOperations : Obligations.OnlyFortyOpselsAreOperations := by
  refine ⟨fun s op operands rest hok hoffers hop => ?_, fun c op hop => ?_⟩
  · have hnone : decode s.cfg ⟨.opsel, op :: operands⟩ = none := by
      simp only [decode, decodePrefix, withByte_cons, decodeOp_eq_none hop]
    rw [step_of_ok hok, fetch_cons_none hoffers hnone]
  · obtain ⟨⟨i, rest⟩, hword, hrest⟩ := Option.map_eq_some_iff.mp (decodeOp_zeros op hop)
    obtain rfl : rest = [] := hrest
    exact ⟨_, i, decode_opWord hword⟩

end Sys2Proof
end

section
/-! What an operation can do, said once: every operation that answers a next state has one of fourteen effects. The rules
about what the whole machine keeps are read off these (rules R20, R52, R53, R68, R69 and R75). -/

namespace Sys2Proof.Machine

open Sys2Proof

/-! ### The effects -/

/-- The rows that are the arrival of a whole packet envelope. -/
def isPacketRow : Instr → Bool
  | .pktIdentify .. | .pktStatus .. | .pktCommand .. | .pktPing .. | .pktResponse .. | .pktUnknown .. => true
  | _ => false

/-- The dispatch, or a row that is a case of it. -/
def isDispatch (i : Instr) : Prop := i = .pktDispatch ∨ i ∈ errorRows

/-- What the byte-serial codec operations make of a context (rules R122 to R128). -/
inductive CodecStep (c : Codec) : Codec → Prop
  | stuffBegin (d : Byte) : CodecStep c (c.stuffBegin d)
  | stuffByte (b : Byte) : CodecStep c (c.stuffByte b).2
  | stuffEnd : CodecStep c c.stuffEnd.2
  | unstuffBegin (d : Byte) : CodecStep c (c.unstuffBegin d)
  | unstuffByte (b : Byte) : CodecStep c (c.unstuffByte b).2
  | unstuffEnd : CodecStep c c.unstuffEnd.2

/-- What the mutators make of a light (rules R257 to R263). -/
inductive LightMutation (l : Light) : Light → Prop
  | steady (st : LightState) (h : st = .on ∨ st = .off) : LightMutation l (l.intend st)
  | startBlink (period : BitVec 64) (h : 0 ≤ period.toInt) : LightMutation l (l.startBlink period)
  | startCount (period : BitVec 64) (count : BitVec 32) (h : 0 ≤ period.toInt) :
      LightMutation l (l.startCount period count)

/-- The effects an operation can have on a state. -/
inductive Effect (s : State) : Instr → State → Prop
  | returnOnly (i : Instr) (r : Ret) (h : readOnly i = true ∨ ∃ k value, i = .busSendControl k value) :
      Effect s i { s with ret := r }
  | codec (i : Instr) (c : Codec) (r : Ret) (hi : portOf i = .host) (hr : readOnly i = false) (hc : CodecStep s.ctxH c) :
      Effect s i { s with ctxH := c, ret := r }
  | clearSums : Effect s .ckReset { s with ckSum1 := 0, ckSum2 := 0, ret := .none }
  | addToSums (b : Byte) :
      Effect s (.ckByte b)
        { s with ckSum1 := sum1Step s.ckSum1 b, ckSum2 := sum2Step s.ckSum2 (sum1Step s.ckSum1 b), ret := .none }
  | rawByte (i : Instr) (b : Byte) (hi : portOf i = .transportRx) : Effect s i { s.readerByte b with ret := .none }
  | frameEnd : Effect s .rxFrameEnd { s.frameEnd with ret := .none }
  | linkByte (b : Byte) : Effect s (.linkRxbyte b) { s.linkByte b with ret := .none }
  | packet (i : Instr) (bs : Bytes) (hi : isPacketRow i = true) (h : s.rxPhase ≠ .ready) :
      Effect s i { s.transportBytes bs with ret := .none }
  | dispatch (i : Instr) (hi : isDispatch i) (h : s.rxPhase = .ready) : Effect s i { s.dispatch with ret := .none }
  | receive (i : Instr) (id : BitVec 32) (payload : Bytes)
      (hi : i = .busRecv id payload ∨
        ∃ ch k base, s.cfg.baseIds[k]? = some base ∧ id = channelId base ch ∧ i = channelInstr ch k payload) :
      Effect s i { s.receive id payload with ret := .none }
  | sendControl (k : Nat) (value : Byte) (base : BitVec 32) (hk : s.cfg.baseIds[k]? = some base) :
      Effect s (.busSendControl k value)
        { s.drewBus with
          busTx := s.busTx ++ [⟨channelId base .control, [value]⟩], ret := .busAnswer s.nextBusAnswer }
  | buttonTick (n : Nat) (p : Bool) (now : BitVec 64) (b : Button) (hb : s.btn[n]? = some b) :
      Effect s (.btnTick n p now) { s.setButton n (b.tick s.cfg p now) with ret := .none }
  | lightUpdate (j : Nat) (now : BitVec 64) (l : Light) (hl : s.light[j]? = some l) :
      Effect s (.lightUpdate j now) { s.setLight j (l.update now) with ret := .none }
  | lightMutator (i : Instr) (j : Nat) (l l' : Light) (hi : portOf i = .app) (hr : readOnly i = false)
      (hl : s.light[j]? = some l) (hm : LightMutation l l') : Effect s i { s.setLight j l' with ret := .none }

/-! ### The forms that several operations share -/

/-- An operation that reads answers at most its value. -/
theorem effect_of_returns {s t : State} {i : Instr} {r : Ret} (hi : readOnly i = true) (h : s.returns r = .next t) :
    Effect s i t := by
  rw [returns_eq_next] at h
  exact h ▸ .returnOnly i r (.inl hi)

theorem effect_of_withBuffer {s t : State} {i : Instr} {n limit : Nat} {r : Result} (h : withBuffer n limit r = .next t)
    (hr : r = .next t → Effect s i t) : Effect s i t :=
  hr (withBuffer_eq_next.mp h).2

/-- A read of a button. -/
theorem effect_of_button_read {s t : State} {i : Instr} {n : Nat} {r : Button → Ret} (hi : readOnly i = true)
    (h : withButton n s (fun b => s.returns (r b)) = .next t) : Effect s i t := by
  obtain ⟨b, _, hb⟩ := withButton_eq_next.mp h
  exact effect_of_returns hi hb

/-- A mutator of a light. -/
theorem effect_of_light_mutator {s t : State} {i : Instr} {j : Nat} {f : Light → Light} (hi : portOf i = .app)
    (hr : readOnly i = false) (hm : ∀ l, LightMutation l (f l))
    (h : withLight j s (fun l => (s.setLight j (f l)).returns .none) = .next t) : Effect s i t := by
  obtain ⟨l, hl, ht⟩ := withLight_eq_next.mp h
  rw [returns_eq_next] at ht
  exact ht ▸ .lightMutator i j l (f l) hi hr hl (hm l)

/-- A mutator of a light with a period. -/
theorem effect_of_period_mutator {s t : State} {i : Instr} {j : Nat} {period : BitVec 64} {f : Light → Light}
    (hi : portOf i = .app) (hr : readOnly i = false) (hm : 0 ≤ period.toInt → ∀ l, LightMutation l (f l))
    (h : withLight j s (fun l => withPeriod period ((s.setLight j (f l)).returns .none)) = .next t) : Effect s i t := by
  obtain ⟨l, hl, ht⟩ := withLight_eq_next.mp h
  obtain ⟨hp, ht⟩ := withPeriod_eq_next.mp ht
  rw [returns_eq_next] at ht
  exact ht ▸ .lightMutator i j l (f l) hi hr hl (hm hp l)

/-- The toggle writes a steady state (rule R259). -/
theorem LightMutation.toggled (l : Light) : LightMutation l l.toggled := by
  unfold Light.toggled
  split
  · exact .steady _ (.inl rfl)
  · exact .steady _ (.inr rfl)
  · exact .steady _ (.inl rfl)
  · exact .steady _ (.inl rfl)

/-- `BLINK_TOGGLE` turns off or starts a blink (rule R261). -/
theorem LightMutation.blinkToggled {period : BitVec 64} (h : 0 ≤ period.toInt) (l : Light) :
    LightMutation l (l.blinkToggled period) := by
  unfold Light.blinkToggled
  split
  · exact .steady _ (.inr rfl)
  · exact .startBlink period h

/-- A byte that reaches the reader of a raw link. -/
theorem effect_of_rawReader {s t : State} {i : Instr} {b : Byte} (hi : portOf i = .transportRx)
    (h : rawReader b s = .next t) : Effect s i t := by
  obtain ⟨_, h⟩ := inLinkMode_eq_next.mp h
  obtain ⟨_, h⟩ := whileReading_eq_next.mp h
  rw [returns_eq_next] at h
  exact h ▸ .rawByte i b hi

/-- What a packet row is, where it runs. -/
theorem receivePacket_eq_next {ty pid ck0 ck1 : Byte} {payload : Bytes} {s t : State} :
    receivePacket ty pid payload ck0 ck1 s = .next t ↔
      payload.length ≤ 255 ∧ s.rxPhase ≠ .ready ∧
        t = { s.transportBytes (linkFrame s.cfg (envelopeBytes pid ty payload ck0 ck1)) with ret := .none } := by
  unfold receivePacket
  split
  · next hlen => simp [Nat.not_le.mpr hlen]
  · next hlen => rw [whileReading_eq_next, returns_eq_next, and_iff_right (Nat.not_lt.mp hlen)]

theorem effect_of_receivePacket {s t : State} {i : Instr} {ty pid ck0 ck1 : Byte} {payload : Bytes}
    (hi : isPacketRow i = true) (h : receivePacket ty pid payload ck0 ck1 s = .next t) : Effect s i t := by
  obtain ⟨_, hs, rfl⟩ := receivePacket_eq_next.mp h
  exact .packet i _ hi hs

/-- What an error-code row is, where it runs (rules R84 and R170). -/
theorem respondCode_eq_next {code : Byte} {s t : State} :
    respondCode code s = .next t ↔
      s.rxPhase = .ready ∧ s.answerCode = some code ∧ t = { s.dispatch with ret := .none } := by
  unfold respondCode
  rw [whileReady_eq_next]
  split
  · next h => rw [returns_eq_next, and_iff_right h]
  · next h => simp [h]

theorem effect_of_respondCode {s t : State} {i : Instr} {code : Byte} (hi : i ∈ errorRows)
    (h : respondCode code s = .next t) : Effect s i t := by
  obtain ⟨hs, _, rfl⟩ := respondCode_eq_next.mp h
  exact .dispatch i (.inr hi) hs

/-- What the reception of a message is, where it runs (rule R202). -/
theorem busReceive_eq_next {id : BitVec 32} {payload : Bytes} {s t : State} :
    busReceive id payload s = .next t ↔
      payload.length ≤ s.cfg.busMaxPayload ∧ t = { s.receive id payload with ret := .none } :=
  exec_busRecv_eq_next

theorem effect_of_receiveOn {s t : State} {ch : Channel} {k : Nat} {payload : Bytes}
    (h : receiveOn ch k payload s = .next t) : Effect s (channelInstr ch k payload) t := by
  unfold receiveOn at h
  split at h
  · cases h
  · next base hk =>
    obtain ⟨_, rfl⟩ := busReceive_eq_next.mp h
    exact .receive _ _ payload (.inr ⟨ch, k, base, hk, rfl, rfl⟩)

/-! ### Every operation -/

/-- Every operation that answers a next state has one of the effects. -/
theorem effect_of_exec {i : Instr} {s t : State} (h : exec i s = .next t) : Effect s i t := by
  cases i
  case enc =>
    exact effect_of_withBuffer h fun h => effect_of_withBuffer h (effect_of_returns rfl)
  case dec | cksum | checkbytes | verify => exact effect_of_withBuffer h (effect_of_returns rfl)
  case maxenc | ckRead | ckCheckbytes => exact effect_of_returns rfl h
  case stuffBegin d => exact returns_eq_next _ |>.mp h ▸ .codec _ _ _ rfl rfl (.stuffBegin d)
  case stuffByte b => exact returns_eq_next _ |>.mp h ▸ .codec _ _ _ rfl rfl (.stuffByte b)
  case stuffEnd => exact returns_eq_next _ |>.mp h ▸ .codec _ _ _ rfl rfl .stuffEnd
  case unstuffBegin d => exact returns_eq_next _ |>.mp h ▸ .codec _ _ _ rfl rfl (.unstuffBegin d)
  case unstuffByte b => exact returns_eq_next _ |>.mp h ▸ .codec _ _ _ rfl rfl (.unstuffByte b)
  case unstuffEnd => exact returns_eq_next _ |>.mp h ▸ .codec _ _ _ rfl rfl .unstuffEnd
  case codeStop => exact returns_eq_next _ |>.mp h ▸ .codec _ _ _ rfl rfl (.unstuffByte 0x00)
  case codeFullrun => exact returns_eq_next _ |>.mp h ▸ .codec _ _ _ rfl rfl (.unstuffByte 0xFF)
  case codeRun b => exact returns_eq_next _ |>.mp h ▸ .codec _ _ _ rfl rfl (.unstuffByte b)
  case ckReset => exact returns_eq_next _ |>.mp h ▸ .clearSums
  case ckByte b => exact returns_eq_next _ |>.mp h ▸ .addToSums b
  case rxByte | start => exact effect_of_rawReader rfl h
  case rxFrameEnd =>
    obtain ⟨_, h⟩ := inLinkMode_eq_next.mp h
    exact returns_eq_next _ |>.mp (whileReading_eq_next.mp h).2 ▸ .frameEnd
  case linkRxbyte b =>
    obtain ⟨_, h⟩ := inLinkMode_eq_next.mp h
    exact returns_eq_next _ |>.mp (whileReading_eq_next.mp h).2 ▸ .linkByte b
  case pktDispatch =>
    obtain ⟨hs, h⟩ := whileReady_eq_next.mp h
    exact returns_eq_next _ |>.mp h ▸ .dispatch _ (.inl rfl) hs
  case txSerialize =>
    change ite _ _ _ = _ at h
    split at h
    · cases h
    · exact effect_of_returns rfl (whileReading_eq_next.mp h).2
  case pktCkstat => exact effect_of_returns rfl (whileReading_eq_next.mp h).2
  case busRecv id payload =>
    obtain ⟨_, rfl⟩ := busReceive_eq_next.mp h
    exact .receive _ id payload (.inl rfl)
  case busSendControl k value =>
    change execBusSendControl k value s = _ at h
    unfold execBusSendControl at h
    split at h
    · exact returns_eq_next _ |>.mp h ▸ .returnOnly _ _ (.inr ⟨k, value, rfl⟩)
    · next base hk => exact returns_eq_next _ |>.mp h ▸ .sendControl k value base hk
  case devGet k =>
    change execDevGet k s = _ at h
    unfold execDevGet at h
    split at h
    · exact effect_of_returns rfl h
    · exact effect_of_returns rfl h
  case busChanid k ch =>
    change execBusChanid k ch s = _ at h
    unfold execBusChanid at h
    split at h
    · cases h
    · split at h
      · exact effect_of_returns rfl h
      · exact effect_of_returns rfl h
  case btnTick n p now =>
    obtain ⟨b, hb, h⟩ := withButton_eq_next.mp h
    exact returns_eq_next _ |>.mp h ▸ .buttonTick n p now b hb
  case btnIsClick | btnIsSingleClick | btnIsDoubleClick | btnIsLongClick | btnIsReleased | btnState =>
    exact effect_of_button_read rfl h
  case lightUpdate j now =>
    obtain ⟨l, hl, h⟩ := withLight_eq_next.mp h
    exact returns_eq_next _ |>.mp h ▸ .lightUpdate j now l hl
  case lightSet j v =>
    exact effect_of_light_mutator rfl rfl (fun _ => .steady _ (by cases v <;> simp)) h
  case lightToggle => exact effect_of_light_mutator rfl rfl LightMutation.toggled h
  case lightBlink => exact effect_of_period_mutator rfl rfl (fun hp _ => .startBlink _ hp) h
  case lightBlinkToggle => exact effect_of_period_mutator rfl rfl LightMutation.blinkToggled h
  case lightBlinkCount => exact effect_of_period_mutator rfl rfl (fun hp _ => .startCount _ _ hp) h
  case lightOut =>
    obtain ⟨l, _, h⟩ := withLight_eq_next.mp h
    exact effect_of_returns rfl h
  case pktIdentify | pktStatus | pktCommand | pktPing | pktResponse | pktUnknown => exact effect_of_receivePacket rfl h
  case eSuccess | eInvalidPacketType | eInvalidFunction | eInsufficientParams | eInvalidDevice | eUnknown =>
    exact effect_of_respondCode (by simp [errorRows]) h
  case chComm => exact effect_of_receiveOn (ch := .comm) h
  case chControl => exact effect_of_receiveOn (ch := .control) h
  case chStatus => exact effect_of_receiveOn (ch := .status) h
  case chMisc => exact effect_of_receiveOn (ch := .misc) h

end Sys2Proof.Machine
end

section
/-! Rules of the whole machine: what no operation writes, and which port writes what (rules R20, R52, R68, R69 and R75). -/

namespace Sys2Proof.Machine

open Sys2Proof

/-! ### Ports of the effects -/

theorem portOf_of_isPacketRow {i : Instr} (h : isPacketRow i = true) : portOf i = .transportRx := by
  cases i
  case pktIdentify | pktStatus | pktCommand | pktPing | pktResponse | pktUnknown => rfl
  all_goals cases h

theorem portOf_of_isDispatch {i : Instr} (h : isDispatch i) : portOf i = .internal := by
  rcases h with rfl | h
  · rfl
  · simp only [errorRows, List.mem_cons, List.not_mem_nil, or_false] at h
    rcases h with rfl | rfl | rfl | rfl | rfl | rfl <;> rfl

/-- What only reads is invoked by the host or the application. -/
theorem portOf_of_readOnly {i : Instr} (h : readOnly i = true) : portOf i = .host ∨ portOf i = .app := by
  revert h
  cases i <;> simp [readOnly, portOf]

theorem portOf_channelInstr (ch : Channel) (k : Nat) (payload : Bytes) : portOf (channelInstr ch k payload) = .busRx := by
  cases ch <;> rfl

/-- A message is received at the bus. -/
theorem portOf_of_receives {c : Config} {i : Instr} {id : BitVec 32} {payload : Bytes}
    (h : i = .busRecv id payload ∨
      ∃ ch k base, c.baseIds[k]? = some base ∧ id = channelId base ch ∧ i = channelInstr ch k payload) :
    portOf i = .busRx := by
  rcases h with rfl | ⟨ch, k, _, _, _, rfl⟩
  · rfl
  · exact portOf_channelInstr ch k payload

/-! ### What is never written -/

/-- Settles O10, effect by effect. -/
theorem configurationIsConstant : Obligations.ConfigurationIsConstant := by
  intro i s t h
  cases effect_of_exec h with
  | rawByte => rw [readerByte_frame]; exact ⟨rfl, rfl⟩
  | frameEnd => rw [frameEnd_frame]; exact ⟨rfl, rfl⟩
  | linkByte => rw [linkByte_frame]; exact ⟨rfl, rfl⟩
  | packet => rw [transportBytes_frame]; exact ⟨rfl, rfl⟩
  | dispatch => exact ⟨dispatch_cfg s, dispatch_offers s⟩
  | receive => rw [receive_frame]; exact ⟨rfl, rfl⟩
  | returnOnly | codec | clearSums | addToSums | sendControl | buttonTick | lightUpdate | lightMutator => exact ⟨rfl, rfl⟩

/-- Settles O15: of the effects only the return of a value is one of a pure function or a query. -/
theorem readsHaveNoSideEffect : Obligations.ReadsHaveNoSideEffect := by
  intro i s t hi h
  cases effect_of_exec h with
  | returnOnly _ r => exact ⟨r, rfl⟩
  | codec _ _ _ _ hr | lightMutator _ _ _ _ _ hr => simp [hr] at hi
  | rawByte _ _ hp => simpa [hp] using portOf_of_readOnly hi
  | packet _ _ hp => simpa [portOf_of_isPacketRow hp] using portOf_of_readOnly hi
  | dispatch _ hp => simpa [portOf_of_isDispatch hp] using portOf_of_readOnly hi
  | receive _ _ _ hp => simpa [portOf_of_receives hp] using portOf_of_readOnly hi
  | clearSums | addToSums | frameEnd | linkByte | sendControl | buttonTick | lightUpdate => cases hi

/-! ### Who writes what -/

/-- Settles O12: for each effect, the fields of its frame and the port of its operations. -/
theorem eachRegisterHasOneWritingPort : Obligations.EachRegisterHasOneWritingPort := by
  intro i s t h
  cases effect_of_exec h with
  | returnOnly => simp
  | codec _ _ _ hi => simp [hi]
  | clearSums | addToSums | sendControl | buttonTick | lightUpdate => simp [portOf]
  | rawByte _ _ hi => rw [readerByte_frame]; simp [hi]
  | frameEnd => rw [frameEnd_frame]; simp [portOf]
  | linkByte => rw [linkByte_frame]; simp [portOf]
  | packet _ _ hi => rw [transportBytes_frame]; simp [portOf_of_isPacketRow hi]
  | dispatch _ hi => rw [dispatch_frame]; simp [portOf_of_isDispatch hi]
  | receive _ _ _ hi => rw [receive_frame]; simp [portOf_of_receives hi]
  | lightMutator _ _ _ _ hi => simp [hi]

end Sys2Proof.Machine
end

section
/-! The dispatch and the bytes of the transport (rules R101, R170 and R173 to R182): what a dispatch answers, what any number
of transport bytes keeps, and the logs (rules R53, R73, R187, R202, R204 and R210). -/

namespace Sys2Proof.Machine

open Sys2Proof

/-! ### Relations that hold along the bytes of the transport -/

/-- A relation between states that each transport byte and each dispatch keeps, any number of transport bytes keep. -/
theorem transportBytes_rel {R : State → State → Prop} (refl : ∀ s, R s s) (trans : ∀ {s t u}, R s t → R t u → R s u)
    (byte : ∀ s b, R s (s.transportByte b)) (dispatch : ∀ s, R s s.dispatch) (bs : Bytes) (s : State) :
    R s (s.transportBytes bs) := by
  induction bs generalizing s with
  | nil => exact refl s
  | cons b bs ih =>
    have first : R s (s.transportByteDispatch b) := by
      unfold State.transportByteDispatch
      split
      · exact trans (byte s b) (dispatch _)
      · exact byte s b
    exact trans first (ih _)

/-- One byte of the transport, before any dispatch, writes the reader's registers, context `L` and the drop count only. -/
theorem transportByte_frame (s : State) (b : Byte) :
    s.transportByte b =
      { s with
        ctxL := (s.transportByte b).ctxL
        rxPhase := (s.transportByte b).rxPhase
        rxPid := (s.transportByte b).rxPid
        rxType := (s.transportByte b).rxType
        rxLen := (s.transportByte b).rxLen
        rxPayload := (s.transportByte b).rxPayload
        rxCk0 := (s.transportByte b).rxCk0
        rxCk1 := (s.transportByte b).rxCk1
        pktDropped := (s.transportByte b).pktDropped } := by
  unfold State.transportByte
  split
  · rw [readerByte_frame]
  · rw [linkByte_frame]

/-! ### What a dispatch answers -/

/-- A dropped packet is counted and nothing else (rules R171 and R172). -/
theorem dispatch_of_drops {s : State} (h : s.latch.dropsPacket = true) : s.dispatch = s.latch.countDrop := if_pos h

/-- Any other packet is answered. -/
theorem dispatch_of_answers {s : State} (h : ¬ s.latch.dropsPacket = true) :
    s.dispatch = s.latch.answer.2.respond s.latch.answer.1 := if_neg h

/-- A Command with no payload has no index byte (rule R176). -/
theorem answerCommand_of_len_zero {s : State} (h : s.rxLen = 0) : s.answerCommand = ([s.cfg.eInvalidFunction], s) := if_pos h

/-- The state of log entry 19, which no run reaches. -/
theorem answerCommand_of_nil {s : State} (h : s.rxLen ≠ 0) (hp : s.rxPayload = []) :
    s.answerCommand = ([s.cfg.eInvalidFunction], s) := by
  simp only [State.answerCommand, if_neg h, hp]

/-- An index of no handler (rule R177). -/
theorem answerCommand_of_no_handler {s : State} {idx : Byte} {params : Bytes} (h : s.rxLen ≠ 0)
    (hp : s.rxPayload = idx :: params) (hm : s.cfg.minParams[idx.toNat]? = none) :
    s.answerCommand = ([s.cfg.eInvalidFunction], s) := by
  simp only [State.answerCommand, if_neg h, hp, hm]

/-- Too few parameters for the handler (rule R178). -/
theorem answerCommand_of_few_params {s : State} {idx : Byte} {params : Bytes} {m : Nat} (h : s.rxLen ≠ 0)
    (hp : s.rxPayload = idx :: params) (hm : s.cfg.minParams[idx.toNat]? = some m) (hlt : params.length < m) :
    s.answerCommand = ([s.cfg.eInsufficientParams], s) := by
  simp only [State.answerCommand, if_neg h, hp, hm, if_pos hlt]

/-- The handler is called, and its answer is the payload (rule R178). -/
theorem answerCommand_of_call {s : State} {idx : Byte} {params : Bytes} {m : Nat} (h : s.rxLen ≠ 0)
    (hp : s.rxPayload = idx :: params) (hm : s.cfg.minParams[idx.toNat]? = some m) (hle : m ≤ params.length) :
    s.answerCommand = ([(s.callCommand idx params).1], (s.callCommand idx params).2) := by
  simp only [State.answerCommand, if_neg h, hp, hm, if_neg (Nat.not_lt.mpr hle)]

/-- A Command is answered with one code and no call, or its handler is called. -/
theorem answerCommand_cases (s : State) :
    (∃ code, s.answerCommand = ([code], s)) ∨
      ∃ idx params, s.answerCommand = ([(s.callCommand idx params).1], (s.callCommand idx params).2) := by
  by_cases h : s.rxLen = 0
  · exact .inl ⟨_, answerCommand_of_len_zero h⟩
  · cases hp : s.rxPayload with
    | nil => exact .inl ⟨_, answerCommand_of_nil h hp⟩
    | cons idx params =>
      cases hm : s.cfg.minParams[idx.toNat]? with
      | none => exact .inl ⟨_, answerCommand_of_no_handler h hp hm⟩
      | some m =>
        rcases Nat.lt_or_ge params.length m with hlt | hle
        · exact .inl ⟨_, answerCommand_of_few_params h hp hm hlt⟩
        · exact .inr ⟨idx, params, answerCommand_of_call h hp hm hle⟩

/-- The answer to a Command is one byte: a code of the dispatcher's or the handler's answer (rules R175 to R178). -/
theorem answerCommand_length (s : State) : s.answerCommand.1.length = 1 := by
  rcases answerCommand_cases s with ⟨_, h⟩ | ⟨_, _, h⟩
  · rw [h, List.length_singleton]
  · rw [h, List.length_singleton]

/-- A callback is asked for as many bytes as it answers. -/
@[simp] theorem length_answerBytes (s : State) (n : Nat) : (s.answerBytes n).length = n := by
  simp [State.answerBytes]

/-- A response payload fits an envelope (rules R7 and R182). -/
theorem answer_length {s : State} (h : s.cfg.ok) : 1 ≤ s.answer.1.length ∧ s.answer.1.length ≤ 253 := by
  obtain ⟨_, _, hident, hstatus, _⟩ := h
  unfold State.answer
  split
  · simp only [identData, List.length_cons, List.length_append, List.length_nil]
    omega
  · simp only [State.callGetStatus, List.length_cons, length_answerBytes]
    omega
  · rw [answerCommand_length]
    decide
  all_goals exact ⟨Nat.le_refl 1, Nat.le_add_left 1 252⟩

/-- A dispatch sends at most the response of its answer. -/
theorem dispatch_tx (s : State) :
    s.dispatch.tx = s.tx ∨ s.dispatch.tx = s.tx ++ s.responseEvents s.latch.answer.1 := by
  by_cases h : s.latch.dropsPacket = true
  · rw [dispatch_of_drops h]
    exact .inl rfl
  · rw [dispatch_of_answers h, respond_tx, answer_frame]
    exact .inr rfl

/-- Answering a packet calls at most one callback. -/
theorem answer_cb (s : State) : s.cb <+: s.answer.2.cb := by
  unfold State.answer
  split
  case h_2 => exact List.prefix_append ..
  case h_3 =>
    rcases answerCommand_cases s with ⟨_, h⟩ | ⟨_, _, h⟩
    · exact h ▸ List.prefix_rfl
    · exact h ▸ List.prefix_append ..
  all_goals exact List.prefix_rfl

theorem dispatch_cb (s : State) : s.cb <+: s.dispatch.cb := by
  by_cases h : s.latch.dropsPacket = true
  · rw [dispatch_of_drops h]
    exact List.prefix_rfl
  · rw [dispatch_of_answers h, respond_cb]
    exact answer_cb s.latch

/-! ### Responses are all that is sent -/

/-- The `TX` entries of the response to a packet id with a payload, under configuration `c`. -/
def responseOf (c : Config) (r : Byte × Bytes) : List TxEvent :=
  [.write (linkFrame c (serialize c r.1 c.tResponse r.2)), .flush]

/-- From `s` to `t` the block sent responses only, each with 1 to 253 payload bytes, under the configuration of both. -/
def SentResponses (s t : State) : Prop :=
  t.cfg = s.cfg ∧ (s.cfg.ok → ∃ rs : List (Byte × Bytes),
    t.tx = s.tx ++ rs.flatMap (responseOf s.cfg) ∧ ∀ r ∈ rs, 1 ≤ r.2.length ∧ r.2.length ≤ 253)

theorem SentResponses.of_tx_eq {s t : State} (hc : t.cfg = s.cfg) (h : t.tx = s.tx) : SentResponses s t :=
  ⟨hc, fun _ => ⟨[], by simp [h], by simp⟩⟩

theorem SentResponses.trans {s t u : State} (h : SentResponses s t) (h' : SentResponses t u) : SentResponses s u := by
  refine ⟨h'.1.trans h.1, fun hok => ?_⟩
  obtain ⟨rs, hrs, hlen⟩ := h.2 hok
  obtain ⟨rs', hrs', hlen'⟩ := h'.2 (h.1 ▸ hok)
  refine ⟨rs ++ rs', ?_, fun r hr => (List.mem_append.mp hr).elim (hlen r) (hlen' r)⟩
  rw [hrs', hrs, h.1, List.flatMap_append, List.append_assoc]

theorem SentResponses.dispatch (s : State) : SentResponses s s.dispatch := by
  refine ⟨dispatch_cfg s, fun hok => ?_⟩
  rcases dispatch_tx s with h | h
  · exact ⟨[], by simp [h], by simp⟩
  · refine ⟨[(s.rxPid, s.latch.answer.1)], h.trans (by simp [responseOf, State.responseEvents]), fun r hr => ?_⟩
    obtain rfl := List.mem_singleton.mp hr
    exact answer_length (s := s.latch) hok

theorem SentResponses.transportBytes (s : State) (bs : Bytes) : SentResponses s (s.transportBytes bs) :=
  transportBytes_rel (fun _ => .of_tx_eq rfl rfl) .trans
    (fun s b => by rw [transportByte_frame]; exact .of_tx_eq rfl rfl) .dispatch bs s

/-- Settles O13: only the dispatch and a packet row that crosses the link send anything, and what they send are responses. -/
theorem onlyResponsesAreTransmitted : Obligations.OnlyResponsesAreTransmitted := by
  intro i s t hok h
  have quiet (ht : t.tx = s.tx) : ∃ rs : List (Byte × Bytes),
      t.tx = s.tx ++ rs.flatMap (responseOf s.cfg) ∧ (∀ r ∈ rs, 1 ≤ r.2.length ∧ r.2.length ≤ 253) ∧
        (rs ≠ [] → portOf i = .transportRx ∨ portOf i = .internal) := ⟨[], by simp [ht], by simp, by simp⟩
  cases effect_of_exec h with
  | packet _ bs hi =>
    obtain ⟨rs, hrs, hlen⟩ := (SentResponses.transportBytes s bs).2 hok
    exact ⟨rs, hrs, hlen, fun _ => .inl (portOf_of_isPacketRow hi)⟩
  | dispatch _ hi =>
    obtain ⟨rs, hrs, hlen⟩ := (SentResponses.dispatch s).2 hok
    exact ⟨rs, hrs, hlen, fun _ => .inr (portOf_of_isDispatch hi)⟩
  | rawByte => exact quiet (by rw [readerByte_frame])
  | frameEnd => exact quiet (by rw [frameEnd_frame])
  | linkByte => exact quiet (by rw [linkByte_frame])
  | receive => exact quiet (by rw [receive_frame])
  | returnOnly | codec | clearSums | addToSums | sendControl | buttonTick | lightUpdate | lightMutator => exact quiet rfl

/-! ### The logs -/

/-- `TX` and `CB` only grow. -/
def OutputsGrow (s t : State) : Prop := s.tx <+: t.tx ∧ s.cb <+: t.cb

theorem OutputsGrow.dispatch (s : State) : OutputsGrow s s.dispatch := by
  refine ⟨?_, dispatch_cb s⟩
  rcases dispatch_tx s with h | h
  · exact h ▸ List.prefix_rfl
  · exact h ▸ List.prefix_append ..

theorem OutputsGrow.transportBytes (s : State) (bs : Bytes) : OutputsGrow s (s.transportBytes bs) :=
  transportBytes_rel (fun _ => ⟨List.prefix_rfl, List.prefix_rfl⟩) (fun h h' => ⟨h.1.trans h'.1, h.2.trans h'.2⟩)
    (fun s b => by rw [transportByte_frame]; exact ⟨List.prefix_rfl, List.prefix_rfl⟩) .dispatch bs s

/-- Every received message is routed as one event (rule R205). -/
theorem receive_route (s : State) (id : BitVec 32) (payload : Bytes) :
    ∃ updated, (s.receive id payload).route = s.route ++ [⟨id, payload, matchId s.cfg id, updated⟩] := by
  cases h : statusUpdate (matchId s.cfg id) payload with
  | none => exact ⟨false, by rw [receive_of_no_update h]⟩
  | some kd => exact ⟨true, by rw [receive_of_update h]⟩

/-- The six packet rows. -/
theorem eq_of_isPacketRow {i : Instr} (h : isPacketRow i = true) :
    ∃ ty pid p ck0 ck1, i = .pktIdentify pid p ck0 ck1 ∨ i = .pktStatus pid p ck0 ck1 ∨ i = .pktCommand pid p ck0 ck1 ∨
      i = .pktPing pid p ck0 ck1 ∨ i = .pktResponse pid p ck0 ck1 ∨ i = .pktUnknown ty pid p ck0 ck1 := by
  cases i
  case pktIdentify pid p ck0 ck1 | pktStatus pid p ck0 ck1 | pktCommand pid p ck0 ck1 | pktPing pid p ck0 ck1
    | pktResponse pid p ck0 ck1 => exact ⟨0, pid, p, ck0, ck1, by simp⟩
  case pktUnknown ty pid p ck0 ck1 => exact ⟨ty, pid, p, ck0, ck1, by simp⟩
  all_goals cases h

/-- What only reads is not invoked at the bus. -/
theorem portOf_ne_busRx_of_returnOnly {i : Instr} (h : readOnly i = true ∨ ∃ k value, i = .busSendControl k value) :
    portOf i ≠ .busRx := by
  rcases h with h | ⟨k, value, rfl⟩
  · rcases portOf_of_readOnly h with h | h <;> simp [h]
  · simp [portOf]

/-- Settles O14: the logs each effect appends to, by its frame. -/
theorem logsAreAppendOnly : Obligations.LogsAreAppendOnly := by
  intro i s t h
  cases effect_of_exec h with
  | returnOnly _ _ hi => simp [portOf_ne_busRx_of_returnOnly hi]
  | codec _ _ _ hi => simp [hi]
  | clearSums | addToSums | buttonTick | lightUpdate => simp [portOf]
  | rawByte _ _ hi => rw [readerByte_frame]; simp [hi]
  | frameEnd => rw [frameEnd_frame]; simp [portOf]
  | linkByte => rw [linkByte_frame]; simp [portOf]
  | packet _ bs hi =>
    have ⟨htx, hcb⟩ := OutputsGrow.transportBytes s bs
    have hrow := eq_of_isPacketRow hi
    rw [transportBytes_frame]
    simp [portOf_of_isPacketRow hi, htx, hcb, hrow]
  | dispatch _ hi =>
    have ⟨htx, hcb⟩ := OutputsGrow.dispatch s
    rw [dispatch_frame]
    refine ⟨htx, List.prefix_rfl, List.prefix_rfl, hcb, by simp, by simp [portOf_of_isDispatch hi], fun _ => ?_⟩
    exact hi.imp_right .inl
  | receive _ id payload hi =>
    obtain ⟨updated, hroute⟩ := receive_route s id payload
    rw [receive_frame, hroute]
    simp [portOf_of_receives hi]
  | sendControl k value base hk =>
    refine ⟨List.prefix_rfl, List.prefix_append .., List.prefix_rfl, List.prefix_rfl, fun _ => ?_, ?_, ?_⟩
    · exact ⟨k, value, base, rfl, hk, rfl⟩
    · simp [portOf]
    · simp
  | lightMutator _ _ _ _ hi => simp [hi]

/-! ### The device records -/

/-- A message carries an update only as five bytes on the status channel of the device (rules R89 and R204). -/
theorem statusUpdate_eq_some {target : Option (Nat × Channel)} {payload : Bytes} {k : Nat} {d : Device}
    (h : statusUpdate target payload = some (k, d)) :
    target = some (k, .status) ∧ ∃ b0 b1 b2 b3 b4, payload = [b0, b1, b2, b3, b4] ∧ d = ⟨b0, b1, b2, b3, b4⟩ := by
  unfold statusUpdate at h
  split at h
  · obtain ⟨d', hrecord, hd⟩ := Option.map_eq_some_iff.mp h
    cases hd
    unfold statusRecord at hrecord
    split at hrecord
    · next b0 b1 b2 b3 b4 => exact ⟨rfl, b0, b1, b2, b3, b4, rfl, (Option.some.inj hrecord).symm⟩
    · cases hrecord
  · cases h

/-- Settles O11: only a received message writes records, and one that carries an update came on the status channel of its
device, whichever way it was named. -/
theorem onlyStatusMessagesWriteDevices : Obligations.OnlyStatusMessagesWriteDevices := by
  intro i s t hok h hdev
  cases effect_of_exec h with
  | receive _ id payload hi =>
    cases hu : statusUpdate (matchId s.cfg id) payload with
    | none => exact absurd (by rw [receive_of_no_update hu]) hdev
    | some kd =>
      obtain ⟨k, d⟩ := kd
      obtain ⟨hmatch, b0, b1, b2, b3, b4, rfl, rfl⟩ := statusUpdate_eq_some hu
      refine ⟨k, b0, b1, b2, b3, b4, ?_, by rw [receive_of_update hu]⟩
      rcases hi with rfl | ⟨ch, k', base', hk', rfl, rfl⟩
      · obtain ⟨base, hk, rfl⟩ := matchId_eq_some hmatch
        exact .inr ⟨base, hk, rfl⟩
      · rw [matchId_channelId hok ch hk'] at hmatch
        cases hmatch
        exact .inl rfl
  | rawByte => exact absurd (by rw [readerByte_frame]) hdev
  | frameEnd => exact absurd (by rw [frameEnd_frame]) hdev
  | linkByte => exact absurd (by rw [linkByte_frame]) hdev
  | packet => exact absurd (by rw [transportBytes_frame]) hdev
  | dispatch => exact absurd (by rw [dispatch_frame]) hdev
  | returnOnly | codec | clearSums | addToSums | sendControl | buttonTick | lightUpdate | lightMutator => exact absurd rfl hdev

end Sys2Proof.Machine
end

section
/-! Steps (rules R70, R170, R296 and R308), reset (rules R300 and R301), and the invariant of the state along steps. -/

namespace Sys2Proof.Machine

open Sys2Proof

/-! ### Which step is taken -/

/-- The dispatcher's own step: the held packet is dispatched, and the reader scans again. -/
theorem step_of_internalDispatch {s : State} (hok : s.cfg.ok) (hready : s.rxPhase = .ready)
    (hfetch : fetch s = .internalDispatch) :
    ∃ t, step s = .next t ∧ exec .pktDispatch s = .next t ∧ t.offers = s.offers ∧ t.rxPhase = .scan := by
  refine ⟨_, ?_, exec_pktDispatch hready, dispatch_offers s, dispatch_rxPhase s⟩
  rw [step_of_ok hok, hfetch]
  exact exec_pktDispatch hready

/-- Settles O4. -/
theorem stepRunsOfferedOperation : Obligations.StepRunsOfferedOperation := by
  intro s o rest i hok hoffers hdec hwaits
  rw [step_of_ok hok, fetch_cons hoffers hdec, if_neg hwaits]

/-- Settles O5: each of the operations named goes behind a held packet, so the dispatcher's step is fetched. -/
theorem transportByteWaitsForDispatch : Obligations.TransportByteWaitsForDispatch := by
  intro s o rest i hok hoffers hdec hready hi
  have hafter : afterHeldPacket i := by
    rcases hi with hi | rfl | ⟨pid, ty, p, rfl⟩
    · exact .inl hi
    · exact .inr rfl
    · exact .inr rfl
  exact step_of_internalDispatch hok hready (by rw [fetch_cons hoffers hdec, if_pos ⟨hafter, hready⟩])

/-- Settles O6. -/
theorem stepsWithNothingOffered : Obligations.StepsWithNothingOffered := by
  intro s
  refine ⟨step_of_not_ok, fun hok hnil hphase => ?_, fun hok hnil hready => ?_⟩
  · rw [step_of_ok hok, fetch_nil hnil, if_neg hphase]
  · obtain ⟨t, hstep, hexec, _, hscan⟩ :=
      step_of_internalDispatch hok hready (by rw [fetch_nil hnil, if_pos hready])
    exact ⟨t, hstep, hexec, hscan⟩

/-! ### Reset -/

theorem Light.reset_inv : Light.reset.inv := ⟨by decide, by decide, fun _ => rfl⟩

theorem Codec.reset_encoderInv (d : Byte) : (Codec.reset d).encoderInv := ⟨Nat.zero_le _, List.not_mem_nil, fun _ => rfl⟩

theorem Codec.reset_decoderInv (d : Byte) : (Codec.reset d).decoderInv := ⟨by simp [Codec.reset], nofun⟩

/-- Reset meets the invariant under every configuration of this hardware. -/
theorem resetWith_inv {c : Config} (h : c.ok) : (State.resetWith c).Inv := by
  refine ⟨h, Codec.reset_encoderInv _, Codec.reset_decoderInv _, Codec.reset_encoderInv _, Codec.reset_decoderInv _,
    Nat.zero_le _, Nat.zero_le _, ⟨Nat.zero_le _, nofun, nofun⟩, List.length_replicate, List.length_replicate,
    List.length_replicate, fun l hl => ?_⟩
  rw [List.eq_of_mem_replicate hl]
  exact Light.reset_inv

/-- Settles O8. -/
theorem resetMeetsInvariant : Obligations.ResetMeetsInvariant :=
  ⟨fun _ => resetWith_inv, resetWith_inv (by decide)⟩

/-- Settles O9. -/
theorem resetValues : Obligations.ResetValues := by
  refine ⟨rfl, fun c => ⟨State.resetWith c, rfl, rfl, rfl, rfl, rfl, rfl, rfl, rfl, rfl, rfl, rfl, rfl, rfl, rfl, rfl, rfl,
    fun k hk => ?_, fun n hn => ?_, fun j hj => ?_, rfl, rfl, rfl, rfl⟩⟩
  · exact List.getElem?_replicate_of_lt hk
  · exact List.getElem?_replicate_of_lt hn
  · exact List.getElem?_replicate_of_lt hj

/-! ### The codec contexts keep their invariants (rules R25 and R27) -/

theorem Codec.stuffByte_encoderInv {c : Codec} (h : c.encoderInv) (b : Byte) : (c.stuffByte b).2.encoderInv := by
  obtain ⟨hlen, hd, hopen⟩ := h
  have empty (o : Bool) : Codec.encoderInv { c with encRun := [], encOpen := o } :=
    ⟨Nat.zero_le _, List.not_mem_nil, fun _ => rfl⟩
  unfold Codec.stuffByte
  dsimp only
  split
  · exact empty true
  · next hb =>
    split
    · exact empty false
    · next hfull =>
      refine ⟨?_, ?_, nofun⟩
      · simp only [maxRun, List.length_append, List.length_singleton] at hfull ⊢
        omega
      · simp [hd, Ne.symm hb]

/-- The count of a run that has begun goes down by one. -/
theorem toNat_sub_one {b : Byte} (h : b ≠ 0) : (b - 1).toNat = b.toNat - 1 := by
  bv_omega

/-- The decoder's part of a context is what its two operations on bytes leave: a run shorter by the byte, or a new one. -/
theorem Codec.unstuffByte_decoderInv {c : Codec} (h : c.decoderInv) (b : Byte) : (c.unstuffByte b).2.decoderInv := by
  obtain ⟨hblock, hstop⟩ := h
  unfold Codec.unstuffByte
  split
  · exact ⟨hblock, hstop⟩
  · next hrun =>
    split
    · next hne =>
      refine ⟨?_, fun hs => absurd hs hrun⟩
      simp only [toNat_sub_one hne]
      omega
    · next hzero =>
      split
      · refine ⟨?_, fun _ => rfl⟩
        simp [not_not.mp hzero]
      · next hb =>
        exact ⟨(toNat_sub_one hb).le, fun hs => absurd hs hrun⟩

/-- The byte operations of one half of a context leave the other half. -/
theorem Codec.stuffByte_decoderInv {c : Codec} (h : c.decoderInv) (b : Byte) : (c.stuffByte b).2.decoderInv := by
  unfold Codec.stuffByte
  dsimp only
  split
  · exact h
  · split
    · exact h
    · exact h

theorem Codec.unstuffByte_encoderInv {c : Codec} (h : c.encoderInv) (b : Byte) : (c.unstuffByte b).2.encoderInv := by
  unfold Codec.unstuffByte
  split
  · exact h
  · split
    · exact h
    · split
      · exact h
      · exact h

theorem Codec.unstuffEnd_decoderInv (c : Codec) : c.unstuffEnd.2.decoderInv := ⟨Nat.zero_le _, nofun⟩

theorem CodecStep.keeps_inv {c c' : Codec} (h : CodecStep c c') (he : c.encoderInv) (hd : c.decoderInv) :
    c'.encoderInv ∧ c'.decoderInv := by
  cases h with
  | stuffBegin d => exact ⟨⟨Nat.zero_le _, List.not_mem_nil, fun _ => rfl⟩, hd⟩
  | stuffByte b => exact ⟨Codec.stuffByte_encoderInv he b, Codec.stuffByte_decoderInv hd b⟩
  | stuffEnd => exact ⟨⟨Nat.zero_le _, List.not_mem_nil, fun _ => rfl⟩, hd⟩
  | unstuffBegin d => exact ⟨he, Nat.zero_le _, nofun⟩
  | unstuffByte b => exact ⟨Codec.unstuffByte_encoderInv he b, Codec.unstuffByte_decoderInv hd b⟩
  | unstuffEnd => exact ⟨he, Codec.unstuffEnd_decoderInv c⟩

/-! ### The checksum accumulators stay below 255 (rule R30) -/

theorem sum1Step_toNat (f0 b : Byte) : (sum1Step f0 b).toNat = (f0.toNat + b.toNat) % 255 := by
  rw [sum1Step, BitVec.toNat_ofNat]
  omega

theorem sum2Step_toNat (f1 f0 : Byte) : (sum2Step f1 f0).toNat = (f1.toNat + f0.toNat) % 255 := by
  rw [sum2Step, BitVec.toNat_ofNat]
  omega

/-! ### The reader keeps its invariant (rule R33) -/

theorem readerByte_readerInv {s : State} (h : s.readerInv) (b : Byte) : (s.readerByte b).readerInv := by
  obtain ⟨hle, hpayload, hdone⟩ := h
  cases hp : s.rxPhase with
  | scan =>
    unfold State.readerByte
    simp only [hp]
    split
    · exact ⟨hle, nofun, nofun⟩
    · exact ⟨hle, hpayload, hdone⟩
  | pid => rw [readerByte_pid b hp]; exact ⟨hle, nofun, nofun⟩
  | type => rw [readerByte_type b hp]; exact ⟨hle, nofun, nofun⟩
  | len =>
    rw [readerByte_len b hp]
    by_cases hb : b = 0
    · subst hb
      exact ⟨Nat.zero_le _, nofun, fun _ => rfl⟩
    · have hpos : 0 < b.toNat := Nat.pos_of_ne_zero fun h0 => hb (BitVec.eq_of_toNat_eq h0)
      rw [if_neg hb]
      exact ⟨Nat.zero_le _, fun _ => hpos, nofun⟩
  | payload =>
    have hlt := hpayload hp
    rw [readerByte_payload b hp]
    by_cases hlast : s.rxPayload.length + 1 = s.rxLen.toNat
    · simp [State.readerInv, hlast]
    · simp only [State.readerInv, List.length_append, List.length_singleton, if_neg hlast]
      exact ⟨hlt, fun _ => by omega, nofun⟩
  | ck0 => rw [readerByte_ck0 b hp]; exact ⟨hle, nofun, fun _ => hdone (.inl hp)⟩
  | ck1 => rw [readerByte_ck1 b hp]; exact ⟨hle, nofun, fun _ => hdone (.inr (.inl hp))⟩
  | ready => rw [readerByte_ready b hp]; exact ⟨hle, hpayload, hdone⟩

/-- Back in `Scan`, the reader's invariant asks for the payload's bound only. -/
theorem readerInv_scan {s : State} (h : s.readerInv) : State.readerInv { s with rxPhase := .scan } := ⟨h.1, nofun, nofun⟩

/-! ### Lights keep theirs (rules R45, R256 and R265) -/

theorem LightMutation.keeps_inv {l l' : Light} (h : LightMutation l l') (hl : l.inv) : l'.inv := by
  obtain ⟨hperiod, hcount, _⟩ := hl
  cases h with
  | steady st _ => exact ⟨hperiod, hcount, nofun⟩
  | startBlink period hp => exact ⟨hp, hcount, nofun⟩
  | startCount period count hp => exact ⟨hp, Nat.zero_le _, nofun⟩

theorem Light.enter_inv {l : Light} (hl : l.inv) (now : BitVec 64) : (l.enter now).inv := by
  obtain ⟨hperiod, hcount, _⟩ := hl
  unfold Light.enter
  split
  all_goals next hst => exact ⟨hperiod, hcount, fun _ => by simp [hst]⟩

/-- A tick of a counted blink counts no further than the target (rule R254). -/
theorem Light.countedBlink_inv {l : Light} (hl : l.inv) (hst : l.state = .blinkCount) (now : BitVec 64) :
    (l.countedBlink now).inv := by
  obtain ⟨hperiod, hcount, _⟩ := id hl
  unfold Light.countedBlink
  split
  · exact ⟨hperiod, hcount, fun _ => by simp [hst]⟩
  · next hbelow =>
    split
    · refine ⟨hperiod, ?_, fun _ => by simp [Light.invert, hst]⟩
      dsimp only [Light.invert]
      split
      · have : (l.blinkToggleCount + 1).toNat = l.blinkToggleCount.toNat + 1 := by bv_omega
        omega
      · exact hcount
    · exact hl

theorem Light.update_inv {l : Light} (hl : l.inv) (now : BitVec 64) : (l.update now).inv := by
  unfold Light.update
  split
  · exact Light.enter_inv hl now
  · split
    · exact hl
    · exact hl
    · next hst =>
      split
      · obtain ⟨hperiod, hcount, _⟩ := hl
        exact ⟨hperiod, hcount, fun _ => by simp [Light.invert, hst]⟩
      · exact hl
    · next hst => exact Light.countedBlink_inv hl hst now

/-! ### The invariant along operations and steps -/

/-- What the transport and the dispatcher write of the invariant: context `L` and the reader. -/
theorem State.Inv.of_frame {s t : State} (h : s.Inv) (hcfg : t.cfg = s.cfg) (hH : t.ctxH = s.ctxH)
    (h1 : t.ckSum1 = s.ckSum1) (h2 : t.ckSum2 = s.ckSum2) (hdev : t.dev = s.dev) (hbtn : t.btn = s.btn)
    (hlight : t.light = s.light) (hL : t.ctxL.encoderInv ∧ t.ctxL.decoderInv) (hreader : t.readerInv) : t.Inv := by
  obtain ⟨hok, he, hd, _, _, hs1, hs2, _, hdl, hbl, hll, hlinv⟩ := h
  unfold State.Inv
  rw [hcfg, hH, h1, h2, hdev, hbtn, hlight]
  exact ⟨hok, he, hd, hL.1, hL.2, hs1, hs2, hreader, hdl, hbl, hll, hlinv⟩

theorem State.Inv.ctxL {s : State} (h : s.Inv) : s.ctxL.encoderInv ∧ s.ctxL.decoderInv := by
  obtain ⟨_, _, _, he, hd, _⟩ := h
  exact ⟨he, hd⟩

theorem State.Inv.reader {s : State} (h : s.Inv) : s.readerInv := by
  obtain ⟨_, _, _, _, _, _, _, hreader, _⟩ := h
  exact hreader

/-- The invariant does not look at what was returned, nor at what is offered. -/
theorem inv_ret {s : State} (r : Ret) (h : s.Inv) : State.Inv { s with ret := r } := h

theorem inv_offers {s : State} (os : List Offer) (h : s.Inv) : State.Inv { s with offers := os } := h

theorem readerByte_inv {s : State} (h : s.Inv) (b : Byte) : (s.readerByte b).Inv := by
  refine h.of_frame ?_ ?_ ?_ ?_ ?_ ?_ ?_ ?_ (readerByte_readerInv h.reader b)
  all_goals rw [readerByte_frame]
  exact h.ctxL

theorem foldl_readerByte_inv {s : State} (h : s.Inv) (bs : Bytes) : (bs.foldl State.readerByte s).Inv := by
  induction bs generalizing s with
  | nil => exact h
  | cons b bs ih => exact ih (readerByte_inv h b)

theorem frameEnd_inv {s : State} (h : s.Inv) : s.frameEnd.Inv := by
  refine h.of_frame ?_ ?_ ?_ ?_ ?_ ?_ ?_ ?_ ?_
  all_goals rw [frameEnd_frame]
  · exact h.ctxL
  · exact readerInv_scan h.reader

theorem linkByte_inv {s : State} (h : s.Inv) (b : Byte) : (s.linkByte b).Inv := by
  obtain ⟨he, hd⟩ := h.ctxL
  unfold State.linkByte
  split
  · exact frameEnd_inv (h.of_frame rfl rfl rfl rfl rfl rfl rfl ⟨he, Codec.unstuffEnd_decoderInv _⟩ h.reader)
  · have hL := And.intro (Codec.unstuffByte_encoderInv he b) (Codec.unstuffByte_decoderInv hd b)
    have hinv : State.Inv { s with ctxL := (s.ctxL.unstuffByte b).2 } :=
      h.of_frame rfl rfl rfl rfl rfl rfl rfl hL h.reader
    exact foldl_readerByte_inv hinv _

theorem transportByte_inv {s : State} (h : s.Inv) (b : Byte) : (s.transportByte b).Inv := by
  unfold State.transportByte
  split
  · exact readerByte_inv h b
  · exact linkByte_inv h b

theorem dispatch_inv {s : State} (h : s.Inv) : s.dispatch.Inv := by
  refine h.of_frame ?_ ?_ ?_ ?_ ?_ ?_ ?_ ?_ ?_
  all_goals rw [dispatch_frame]
  · exact h.ctxL
  · exact readerInv_scan h.reader

theorem transportBytes_inv {s : State} (h : s.Inv) (bs : Bytes) : (s.transportBytes bs).Inv :=
  transportBytes_rel (R := fun s t => s.Inv → t.Inv) (fun _ h => h) (fun h h' hs => h' (h hs))
    (fun _ b h => transportByte_inv h b) (fun _ h => dispatch_inv h) bs s h

/-- A message keeps the number of records. -/
theorem receive_dev_length (s : State) (id : BitVec 32) (payload : Bytes) :
    (s.receive id payload).dev.length = s.dev.length := by
  cases h : statusUpdate (matchId s.cfg id) payload with
  | none => rw [receive_of_no_update h]
  | some kd => rw [receive_of_update h, List.length_set]

theorem setLight_inv {s : State} (h : s.Inv) (j : Nat) {l : Light} (hl : l.inv) : (s.setLight j l).Inv := by
  obtain ⟨hok, he, hd, hel, hdl, hs1, hs2, hr, hdev, hbtn, hlight, hinv⟩ := h
  refine ⟨hok, he, hd, hel, hdl, hs1, hs2, hr, hdev, hbtn, by simp [hlight], fun l' hl' => ?_⟩
  rcases List.mem_or_eq_of_mem_set hl' with hl' | rfl
  · exact hinv l' hl'
  · exact hl

/-- Every operation keeps the invariant: for each effect, the part of the state it writes keeps its own. -/
theorem exec_inv {i : Instr} {s t : State} (h : s.Inv) (hexec : exec i s = .next t) : t.Inv := by
  have ⟨hok, he, hd, hel, hdl, hs1, hs2, hr, hdev, hbtn, hlight, hinv⟩ := h
  cases effect_of_exec hexec with
  | returnOnly | sendControl => exact h
  | codec _ c _ _ _ hc =>
    obtain ⟨he', hd'⟩ := hc.keeps_inv he hd
    exact ⟨hok, he', hd', hel, hdl, hs1, hs2, hr, hdev, hbtn, hlight, hinv⟩
  | clearSums => exact ⟨hok, he, hd, hel, hdl, Nat.zero_le _, Nat.zero_le _, hr, hdev, hbtn, hlight, hinv⟩
  | addToSums b =>
    refine ⟨hok, he, hd, hel, hdl, ?_, ?_, hr, hdev, hbtn, hlight, hinv⟩
    · rw [sum1Step_toNat]; omega
    · rw [sum2Step_toNat]; omega
  | rawByte _ b => exact inv_ret _ (readerByte_inv h b)
  | frameEnd => exact inv_ret _ (frameEnd_inv h)
  | linkByte b => exact inv_ret _ (linkByte_inv h b)
  | packet _ bs => exact inv_ret _ (transportBytes_inv h bs)
  | dispatch => exact inv_ret _ (dispatch_inv h)
  | receive _ id payload =>
    have hlen := receive_dev_length s id payload
    rw [receive_frame]
    exact ⟨hok, he, hd, hel, hdl, hs1, hs2, hr, hlen.trans hdev, hbtn, hlight, hinv⟩
  | buttonTick n p now b => exact ⟨hok, he, hd, hel, hdl, hs1, hs2, hr, hdev, by simp [hbtn], hlight, hinv⟩
  | lightUpdate j now l hl => exact inv_ret _ (setLight_inv h j (Light.update_inv (hinv l (List.mem_of_getElem? hl)) now))
  | lightMutator _ j l l' _ _ hl hm => exact inv_ret _ (setLight_inv h j (hm.keeps_inv (hinv l (List.mem_of_getElem? hl))))

/-- Settles O7: a step is idle or one operation, on the state or on it with fewer words offered. -/
theorem stepKeepsInvariant : Obligations.StepKeepsInvariant := by
  intro s t h hstep
  obtain ⟨_, rfl | ⟨i, rest, hexec⟩⟩ := step_cases hstep
  · exact h
  · exact exec_inv (inv_offers rest h) hexec

end Sys2Proof.Machine
end

section
/-! The codec: what each byte-serial operation does (rules R122 to R128), the size and the bytes of an encoded buffer (rules
R115 and R130), broken frames (rules R116 to R120), and the agreement of the two forms (rules R125 and R129). -/

namespace Sys2Proof.Machine

open Sys2Proof

/-! ### The framer and the unstuffer, one byte at a time -/

theorem Codec.stuffByte_delimiter (c : Codec) :
    c.stuffByte c.encD = (codeByte c.encRun.length :: c.encRun, { c with encRun := [], encOpen := true }) := if_pos rfl

theorem Codec.stuffByte_data {c : Codec} {b : Byte} (hb : b ≠ c.encD) (h : c.encRun.length ≠ 253) :
    c.stuffByte b = ([], { c with encRun := c.encRun ++ [b], encOpen := true }) := by
  simp [Codec.stuffByte, hb, maxRun, h]

theorem Codec.stuffByte_full {c : Codec} {b : Byte} (hb : b ≠ c.encD) (h : c.encRun.length = 253) :
    c.stuffByte b = (0xFF :: (c.encRun ++ [b]), { c with encRun := [], encOpen := false }) := by
  simp [Codec.stuffByte, hb, maxRun, h]

theorem Codec.unstuffByte_stopped {c : Codec} (b : Byte) (h : c.decStop = true) : c.unstuffByte b = ([], c) := if_pos h

theorem Codec.unstuffByte_run {c : Codec} (b : Byte) (hs : c.decStop = false) (h : c.decBlock ≠ 0) :
    c.unstuffByte b = ([b], { c with decBlock := c.decBlock - 1 }) := by
  rw [Codec.unstuffByte, if_neg (by simp [hs]), if_pos h]

theorem Codec.unstuffByte_stop {c : Codec} (hs : c.decStop = false) (h : c.decBlock = 0) :
    c.unstuffByte 0 = ([], { c with decCode := 0, decStop := true }) := by
  rw [Codec.unstuffByte, if_neg (by simp [hs]), if_neg (not_not_intro h), if_pos rfl]

theorem Codec.unstuffByte_code {c : Codec} {b : Byte} (hb : b ≠ 0) (hs : c.decStop = false) (h : c.decBlock = 0) :
    c.unstuffByte b = (separator c.decD c.decCode, { c with decCode := b, decBlock := b - 1 }) := by
  rw [Codec.unstuffByte, if_neg (by simp [hs]), if_neg (not_not_intro h), if_neg hb, ite_not, separator]

theorem exec_stuffByte (s : State) (b : Byte) :
    exec (.stuffByte b) s =
      .next { s with ctxH := (s.ctxH.stuffByte b).2, ret := .bytes (s.ctxH.stuffByte b).1 } := rfl

theorem exec_stuffEnd (s : State) :
    exec .stuffEnd s = .next { s with ctxH := s.ctxH.stuffEnd.2, ret := .bytes s.ctxH.stuffEnd.1 } := rfl

theorem exec_unstuffByte (s : State) (b : Byte) :
    exec (.unstuffByte b) s =
      .next { s with ctxH := (s.ctxH.unstuffByte b).2, ret := .bytes (s.ctxH.unstuffByte b).1 } := rfl

/-- Settles O23. -/
theorem framerOperations : Obligations.FramerOperations := by
  intro s
  refine ⟨fun d => rfl, ?_, fun b hb h => ?_, fun b hb h => ?_, fun h => ?_, fun h => ?_⟩
  · rw [exec_stuffByte, Codec.stuffByte_delimiter]
    rfl
  · rw [exec_stuffByte, Codec.stuffByte_data hb h]
  · rw [exec_stuffByte, Codec.stuffByte_full hb h]
    rfl
  · rw [exec_stuffEnd, Codec.stuffEnd, if_pos h]
    rfl
  · rw [exec_stuffEnd, Codec.stuffEnd, h]
    rfl

/-- Settles O24. -/
theorem unstufferOperations : Obligations.UnstufferOperations := by
  intro s
  refine ⟨fun d => rfl, fun b h => ?_, fun b hs h => ?_, fun hs h => ⟨?_, ?_, fun c h0 _ => ?_⟩, ⟨rfl, rfl, fun _ => rfl⟩, ?_⟩
  · rw [exec_unstuffByte, Codec.unstuffByte_stopped b h]
  · rw [exec_unstuffByte, Codec.unstuffByte_run b hs h]
  · change exec (.unstuffByte 0) s = _
    rw [exec_unstuffByte, Codec.unstuffByte_stop hs h]
  · change exec (.unstuffByte 0xFF) s = _
    rw [exec_unstuffByte, Codec.unstuffByte_code (by decide) hs h]
    rfl
  · change exec (.unstuffByte c) s = _
    rw [exec_unstuffByte, Codec.unstuffByte_code h0 hs h]
    rfl
  · change State.returns _ _ = _
    rw [returns_eq, Codec.unstuffEnd]
    simp

/-! ### Inductions along the encoder's events -/

/-- What holds of the encoder's output at the end of the input, and passes back over each of its events (rule R111), holds of
the output from within any open run. -/
theorem encOpenRun_induction {d : Byte} {P : Bytes → Bytes → Bytes → Prop}
    (nil : ∀ run, run.length ≤ 253 → P run [] (codeByte run.length :: run))
    (delimiter : ∀ run rest, run.length ≤ 253 → P [] rest (enc rest d) →
      P run (d :: rest) (codeByte run.length :: run ++ enc rest d))
    (data : ∀ run b rest, run.length < 253 → b ≠ d → P (run ++ [b]) rest (encOpenRun d (run ++ [b]) rest) →
      P run (b :: rest) (encOpenRun d (run ++ [b]) rest))
    (last : ∀ run b, run.length = 253 → b ≠ d → P run [b] (0xFF :: (run ++ [b])))
    (full : ∀ run b rest, run.length = 253 → b ≠ d → rest ≠ [] → P [] rest (enc rest d) →
      P run (b :: rest) (0xFF :: (run ++ [b]) ++ enc rest d))
    (run rest : Bytes) (h : run.length ≤ 253) : P run rest (encOpenRun d run rest) := by
  induction rest generalizing run with
  | nil => exact encOpenRun_nil d run ▸ nil run h
  | cons b rest ih =>
    by_cases hb : b = d
    · subst hb
      exact encOpenRun_delimiter b run rest ▸ delimiter run rest h (ih [] (Nat.zero_le _))
    · by_cases hlt : run.length < 253
      · exact encOpenRun_data run rest hb hlt ▸ data run b rest hlt hb (ih _ (by simp; omega))
      · have hlen : run.length = 253 := by omega
        rw [encOpenRun_full run rest hb hlen]
        by_cases hr : rest = []
        · subst hr
          simpa using last run b hlen hb
        · rw [if_neg hr]
          exact full run b rest hlen hb hr (ih [] (Nat.zero_le _))

/-! ### Size and bytes of the encoded form -/

/-- `|ENC in, d| <= max(1, MAXENC |in|)`, for the bytes of the open run and those to come together (rule R115). -/
theorem encOpenRun_length_le (d : Byte) (run rest : Bytes) (h : run.length ≤ 253) :
    (encOpenRun d run rest).length ≤ max 1 (maxenc (run.length + rest.length)) := by
  refine encOpenRun_induction (P := fun run rest out => out.length ≤ max 1 (maxenc (run.length + rest.length)))
    ?_ ?_ ?_ ?_ ?_ run rest h
  · intro run _
    simp only [maxenc, List.length_cons, List.length_nil]
    omega
  · intro run rest _ ih
    simp only [maxenc, List.length_cons, List.length_append, List.length_nil] at ih ⊢
    omega
  · intro run b rest _ _ ih
    simp only [List.length_append, List.length_cons, List.length_nil] at ih ⊢
    convert ih using 3
    omega
  · intro run b h _
    simp only [maxenc, List.length_cons, List.length_append, List.length_nil]
    omega
  · intro run b rest h _ hr ih
    have hpos := List.length_pos_iff.mpr hr
    simp only [maxenc, List.length_cons, List.length_append, List.length_nil] at ih ⊢
    omega

/-- A code byte is not 0. -/
theorem codeByte_ne_zero {n : Nat} (h : n ≤ 254) : codeByte n ≠ 0 := fun h0 => by
  have := toNat_codeByte h
  simp [h0] at this

/-- With delimiter `0x00` nothing that is output is `0x00` (rule R130). -/
theorem zero_not_mem_encOpenRun (run rest : Bytes) (h : run.length ≤ 253) (hrun : 0 ∉ run) :
    0 ∉ encOpenRun 0 run rest := by
  refine encOpenRun_induction (P := fun run _ out => 0 ∉ run → 0 ∉ out) ?_ ?_ ?_ ?_ ?_ run rest h hrun
  · intro run h hrun
    exact List.not_mem_cons_of_ne_of_not_mem (codeByte_ne_zero (by omega)).symm hrun
  · intro run rest h ih hrun
    rw [List.cons_append]
    refine List.not_mem_cons_of_ne_of_not_mem (codeByte_ne_zero (by omega)).symm ?_
    exact List.not_mem_append hrun (ih List.not_mem_nil)
  · intro run b rest _ hb ih hrun
    exact ih (List.not_mem_append hrun (by simpa using hb.symm))
  · intro run b _ hb hrun
    exact List.not_mem_cons_of_ne_of_not_mem (by decide) (List.not_mem_append hrun (by simpa using hb.symm))
  · intro run b rest _ hb _ ih hrun
    refine List.not_mem_append ?_ (ih List.not_mem_nil)
    exact List.not_mem_cons_of_ne_of_not_mem (by decide) (List.not_mem_append hrun (by simpa using hb.symm))

/-- Settles O19. -/
theorem encodedFormIsBoundedAndDelimiterFree : Obligations.EncodedFormIsBoundedAndDelimiterFree := by
  refine ⟨fun _ _ => rfl, fun b d => ?_, fun b => ?_⟩
  · simpa [maxenc, enc_eq_encOpenRun] using encOpenRun_length_le d [] b (Nat.zero_le _)
  · exact zero_not_mem_encOpenRun [] b (Nat.zero_le _) List.not_mem_nil

/-! ### Broken frames -/

/-- Inside a run a byte is copied. -/
theorem decLoop_data (d b : Byte) (rest : Bytes) (code : Byte) {block : Nat} (h : block ≠ 0) :
    decLoop d (b :: rest) code block = b :: decLoop d rest code (block - 1) := by
  rw [decLoop, if_pos h]

/-- A code byte `0x00` stops the decoder (rule R119). -/
theorem decLoop_stop (d : Byte) (rest : Bytes) (code : Byte) : decLoop d (0 :: rest) code 0 = [] := by
  simp [decLoop]

/-- What more input adds to the output stands behind what there was. -/
theorem decLoop_append (d : Byte) (f g : Bytes) (code : Byte) (block : Nat) :
    decLoop d f code block <+: decLoop d (f ++ g) code block := by
  induction f generalizing code block with
  | nil => exact List.nil_prefix
  | cons b f ih =>
    rw [List.cons_append]
    by_cases hblock : block = 0
    · subst hblock
      by_cases hb : b = 0
      · subst hb
        rw [decLoop_stop, decLoop_stop]
      · rw [decLoop_code d f code hb, decLoop_code d (f ++ g) code hb]
        exact (List.prefix_append_right_inj _).mpr (ih b _)
    · rw [decLoop_data d b f code hblock, decLoop_data d b (f ++ g) code hblock]
      exact List.cons_prefix_cons.mpr ⟨rfl, ih code _⟩

theorem separator_length_le (d code : Byte) : (separator d code).length ≤ 1 := by
  unfold separator
  split <;> simp

/-- The output is never longer than the input (rule R116). -/
theorem decLoop_length_le (d : Byte) (f : Bytes) (code : Byte) (block : Nat) :
    (decLoop d f code block).length ≤ f.length := by
  induction f generalizing code block with
  | nil => exact Nat.zero_le _
  | cons b f ih =>
    by_cases hblock : block = 0
    · subst hblock
      by_cases hb : b = 0
      · subst hb
        rw [decLoop_stop]
        exact Nat.zero_le _
      · have := separator_length_le d code
        have := ih b (b.toNat - 1)
        rw [decLoop_code d f code hb, List.length_append, List.length_cons]
        omega
    · rw [decLoop_data d b f code hblock]
      exact Nat.succ_le_succ (ih code _)

/-- A frame that ends inside a run decodes to all that was copied of the run (rule R118). -/
theorem decLoop_cut_run (d : Byte) (data : Bytes) (code : Byte) {block : Nat} (h : data.length ≤ block) :
    decLoop d data code block = data := by
  induction data generalizing block with
  | nil => rfl
  | cons b data ih =>
    rw [List.length_cons] at h
    rw [decLoop_data d b data code (by omega), ih (by omega)]

/-- A last run that is cut short, behind what its code byte inserts. -/
theorem decLoop_cut_frame (d : Byte) {n : Nat} (data : Bytes) (code : Byte) (h : data.length ≤ n) (hn : n ≤ 254) :
    decLoop d (codeByte n :: data) code 0 = separator d code ++ data := by
  rw [decLoop_code d data code (codeByte_ne_zero hn), toNat_codeByte hn, Nat.add_sub_cancel, decLoop_cut_run d data _ h]

/-- Behind a whole frame, a code byte `0x00` ends the decoding (rule R119). -/
theorem decLoop_encOpenRun_stop (d : Byte) (run rest tail : Bytes) (code : Byte) (h : run.length ≤ 253) :
    decLoop d (encOpenRun d run rest ++ 0 :: tail) code 0 = separator d code ++ run ++ rest := by
  refine encOpenRun_induction
    (P := fun run rest out => ∀ code, decLoop d (out ++ 0 :: tail) code 0 = separator d code ++ run ++ rest)
    ?_ ?_ ?_ ?_ ?_ run rest h code
  · intro run h code
    rw [decLoop_codeByte_run d run _ code (by omega), decLoop_stop]
  · intro run rest h ih code
    rw [List.append_assoc, decLoop_codeByte_run d run _ code (by omega), ih, separator_codeByte d h]
    simp
  · intro run b rest _ _ ih code
    rw [ih]
    simp
  · intro run b h _ code
    have hrun : (run ++ [b]).length = 254 := by simp [h]
    have hcode : codeByte (run ++ [b]).length = 0xFF := by rw [hrun]; rfl
    rw [← hcode, decLoop_codeByte_run d (run ++ [b]) _ code hrun.le, decLoop_stop]
    simp
  · intro run b rest h _ _ ih code
    have hrun : (run ++ [b]).length = 254 := by simp [h]
    have hcode : codeByte (run ++ [b]).length = 0xFF := by rw [hrun]; rfl
    rw [List.append_assoc, ← hcode, decLoop_codeByte_run d (run ++ [b]) _ code hrun.le, ih, hcode]
    simp [separator]

/-- Settles O20. -/
theorem decoderDegradesGracefully : Obligations.DecoderDegradesGracefully := by
  refine ⟨fun f g d => decLoop_append d f g 0xFF 0, fun b rest d => ?_, fun n data d hdata hn => ⟨?_, fun run => ⟨?_, ?_⟩⟩,
    fun f d => decLoop_length_le d f 0xFF 0⟩
  · exact decLoop_encOpenRun_stop d [] b rest 0xFF (Nat.zero_le _)
  · exact decLoop_cut_frame d data 0xFF hdata hn
  · intro hrun
    refine (decLoop_codeByte_run d run (codeByte n :: data) 0xFF (by omega)).trans ?_
    rw [decLoop_cut_frame d data _ hdata hn, separator_codeByte d hrun]
    rfl
  · intro hrun
    have hcode : codeByte run.length = 0xFF := by rw [hrun]; rfl
    rw [← hcode]
    refine (decLoop_codeByte_run d run (codeByte n :: data) 0xFF hrun.le).trans ?_
    rw [decLoop_cut_frame d data _ hdata hn, hcode]
    rfl

/-! ### The byte-serial forms -/

/-- What the operation after the first returns stands behind what the first returns. -/
theorem returnedBytes_cons {i : Instr} {s t : State} (rest : List Instr) (h : exec i s = .next t) :
    returnedBytes (i :: rest) s = (returnedBytes rest t).map (t.ret.toBytes ++ ·) := by
  simp only [returnedBytes, h]

/-- The framer with a run open, or with none and input to come, returns what the encoder outputs from within that run
(rule R125): a simulation along the encoder's events. -/
theorem returnedBytes_framer (d : Byte) (run rest : Bytes) (s : State) (hlen : run.length ≤ 253) (hd : s.ctxH.encD = d)
    (hrun : s.ctxH.encRun = run) (hopen : s.ctxH.encOpen = true ∨ rest ≠ []) :
    returnedBytes (stuffBytes rest ++ [.stuffEnd]) s = some (encOpenRun d run rest) := by
  refine encOpenRun_induction
    (P := fun run rest out => ∀ s : State, s.ctxH.encD = d → s.ctxH.encRun = run →
      (s.ctxH.encOpen = true ∨ rest ≠ []) → returnedBytes (stuffBytes rest ++ [.stuffEnd]) s = some out)
    ?_ ?_ ?_ ?_ ?_ run rest hlen s hd hrun hopen
  · rintro _ _ s _ rfl hopen
    have hopen : s.ctxH.encOpen = true := by simpa using hopen
    simp [stuffBytes, returnedBytes, exec_stuffEnd, Codec.stuffEnd, hopen, Ret.toBytes]
  · rintro _ rest _ ih s rfl rfl _
    refine (returnedBytes_cons _ (exec_stuffByte s s.ctxH.encD)).trans ?_
    rw [Codec.stuffByte_delimiter]
    exact congrArg (Option.map _) (ih _ (by rfl) (by rfl) (.inl (by rfl)))
  · rintro _ b rest h hb ih s rfl rfl _
    refine (returnedBytes_cons _ (exec_stuffByte s b)).trans ?_
    rw [Codec.stuffByte_data hb h.ne]
    exact congrArg (Option.map _) (ih _ (by rfl) (by rfl) (.inl (by rfl)))
  · rintro _ b h hb s rfl rfl _
    refine (returnedBytes_cons _ (exec_stuffByte s b)).trans ?_
    rw [Codec.stuffByte_full hb h]
    simp [returnedBytes, exec_stuffEnd, Codec.stuffEnd, Ret.toBytes]
  · rintro _ b rest h hb hr ih s rfl rfl _
    refine (returnedBytes_cons _ (exec_stuffByte s b)).trans ?_
    rw [Codec.stuffByte_full hb h]
    exact congrArg (Option.map _) (ih _ (by rfl) (by rfl) (.inr hr))

/-- Settles O21: `STUFF.BEGIN` opens an empty run. -/
theorem framerAgreesWithEnc : Obligations.FramerAgreesWithEnc := by
  intro s b d
  have hbegin : exec (.stuffBegin d) s = .next { s with ctxH := s.ctxH.stuffBegin d, ret := .none } := rfl
  rw [returnedBytes_cons _ hbegin, returnedBytes_framer d [] b _ (Nat.zero_le _) rfl rfl (.inl rfl)]
  rfl

/-- What the decoder would still output for the bytes `f`, from a context: nothing where it has stopped. -/
def Codec.decodes (c : Codec) (f : Bytes) : Bytes :=
  if c.decStop then [] else decLoop c.decD f c.decCode c.decBlock.toNat

theorem Codec.decodes_of_stopped {c : Codec} (f : Bytes) (h : c.decStop = true) : c.decodes f = [] := if_pos h

theorem Codec.decodes_of_running {c : Codec} (f : Bytes) (h : c.decStop = false) :
    c.decodes f = decLoop c.decD f c.decCode c.decBlock.toNat := if_neg (by simp [h])

/-- One byte of the unstuffer is one turn of the decoder's loop. -/
theorem Codec.decodes_cons (c : Codec) (b : Byte) (f : Bytes) :
    c.decodes (b :: f) = (c.unstuffByte b).1 ++ (c.unstuffByte b).2.decodes f := by
  cases hs : c.decStop with
  | true => rw [Codec.unstuffByte_stopped b hs, decodes_of_stopped _ hs, decodes_of_stopped _ hs, List.nil_append]
  | false =>
    rw [decodes_of_running _ hs]
    by_cases hblock : c.decBlock = 0
    · rw [hblock]
      by_cases hb : b = 0
      · subst hb
        rw [Codec.unstuffByte_stop hs hblock, decodes_of_stopped _ rfl]
        exact decLoop_stop c.decD f c.decCode
      · simp only [Codec.unstuffByte_code hb hs hblock, Codec.decodes, hs, Bool.false_eq_true, if_false, toNat_sub_one hb]
        exact decLoop_code c.decD f c.decCode hb
    · have hpos : c.decBlock.toNat ≠ 0 := fun h0 => hblock (BitVec.eq_of_toNat_eq h0)
      simp only [Codec.unstuffByte_run b hs hblock, Codec.decodes, hs, Bool.false_eq_true, if_false, toNat_sub_one hblock]
      exact decLoop_data c.decD b f c.decCode hpos

/-- The unstuffer returns what the decoder outputs (rule R129): a simulation, byte by byte. -/
theorem returnedBytes_unstuffer (f : Bytes) (s : State) : returnedBytes (unstuffBytes f) s = some (s.ctxH.decodes f) := by
  induction f generalizing s with
  | nil => simp [unstuffBytes, returnedBytes, Codec.decodes, decLoop]
  | cons b f ih =>
    refine (returnedBytes_cons _ (exec_unstuffByte s b)).trans ?_
    rw [Codec.decodes_cons]
    exact congrArg _ (ih _)

/-- Settles O22: `UNSTUFF.BEGIN` puts the context where `DEC` begins. -/
theorem unstufferAgreesWithDec : Obligations.UnstufferAgreesWithDec := by
  intro s f d
  have hbegin : exec (.unstuffBegin d) s = .next { s with ctxH := s.ctxH.unstuffBegin d, ret := .none } := rfl
  rw [returnedBytes_cons _ hbegin, returnedBytes_unstuffer]
  rfl

end Sys2Proof.Machine
end

section
/-! The checksum: closed forms of its two sums, what the operations return (rules R141 to R153), and what the verifier
detects (rules R143 and R146). -/

namespace Sys2Proof.Machine

open Sys2Proof

/-! ### The two sums in closed form -/

/-- The sum of the bytes. -/
def byteSum (bs : Bytes) : Nat := (bs.map BitVec.toNat).sum

/-- The sum of the bytes, each weighted by its distance from the end. -/
def weightedSum : Bytes → Nat
  | [] => 0
  | b :: bs => (bs.length + 1) * b.toNat + weightedSum bs

@[simp] theorem byteSum_nil : byteSum [] = 0 := rfl

@[simp] theorem byteSum_cons (b : Byte) (bs : Bytes) : byteSum (b :: bs) = b.toNat + byteSum bs := by
  simp [byteSum]

@[simp] theorem byteSum_append (as bs : Bytes) : byteSum (as ++ bs) = byteSum as + byteSum bs := by
  simp [byteSum]

@[simp] theorem weightedSum_nil : weightedSum [] = 0 := rfl

@[simp] theorem weightedSum_cons (b : Byte) (bs : Bytes) :
    weightedSum (b :: bs) = (bs.length + 1) * b.toNat + weightedSum bs := rfl

/-- Bytes behind others push these further from the end. -/
@[simp] theorem weightedSum_append (as bs : Bytes) :
    weightedSum (as ++ bs) = weightedSum as + bs.length * byteSum as + weightedSum bs := by
  induction as with
  | nil => simp
  | cons a as ih =>
    simp only [List.cons_append, weightedSum_cons, ih, List.length_append, byteSum_cons]
    ring

/-- The weighted sum as the statement writes it, over the bytes with their positions. -/
theorem weightedSum_eq_zipIdx (bs : Bytes) :
    weightedSum bs = (bs.zipIdx.map fun x => (bs.length - x.2) * x.1.toNat).sum := by
  have shifted (k : Nat) :
      weightedSum bs = ((bs.zipIdx k).map fun x => (bs.length + k - x.2) * x.1.toNat).sum := by
    induction bs generalizing k with
    | nil => rfl
    | cons b bs ih =>
      have hweight : bs.length + 1 + k = bs.length + (k + 1) := by omega
      rw [weightedSum_cons, List.zipIdx_cons, List.map_cons, List.sum_cons, List.length_cons, Nat.add_sub_cancel, hweight,
        ← ih (k + 1)]
  simpa using shifted 0

/-! ### The sums, byte by byte -/

theorem byte_zero_toNat : (0 : Byte).toNat = 0 := rfl

theorem sums_cons (b : Byte) (bs : Bytes) (st : Byte × Byte) :
    sums (b :: bs) st = sums bs (sum1Step st.1 b, sum2Step st.2 (sum1Step st.1 b)) := rfl

theorem sums_append (as bs : Bytes) (st : Byte × Byte) : sums (as ++ bs) st = sums bs (sums as st) :=
  List.foldl_append

/-- The accumulators from any start, modulo 255. -/
theorem sums_modEq (bs : Bytes) (f0 f1 : Byte) :
    (sums bs (f0, f1)).1.toNat ≡ f0.toNat + byteSum bs [MOD 255] ∧
      (sums bs (f0, f1)).2.toNat ≡ f1.toNat + bs.length * f0.toNat + weightedSum bs [MOD 255] := by
  induction bs generalizing f0 f1 with
  | nil => simpa [sums] using ⟨Nat.ModEq.refl _, Nat.ModEq.refl _⟩
  | cons b bs ih =>
    obtain ⟨ih1, ih2⟩ := ih (sum1Step f0 b) (sum2Step f1 (sum1Step f0 b))
    have h1 : (sum1Step f0 b).toNat ≡ f0.toNat + b.toNat [MOD 255] := sum1Step_toNat f0 b ▸ Nat.mod_modEq _ _
    have h2 : (sum2Step f1 (sum1Step f0 b)).toNat ≡ f1.toNat + (f0.toNat + b.toNat) [MOD 255] :=
      (sum2Step_toNat f1 _ ▸ Nat.mod_modEq _ _ : _ ≡ f1.toNat + (sum1Step f0 b).toNat [MOD 255]).trans (h1.add_left _)
    rw [sums_cons]
    refine ⟨(ih1.trans (h1.add_right _)).trans ?_, (ih2.trans ((h2.add (h1.mul_left _)).add_right _)).trans ?_⟩
    · rw [byteSum_cons, Nat.add_assoc]
    · rw [weightedSum_cons, List.length_cons]
      ring_nf
      exact Nat.ModEq.refl _

/-- The accumulators stay below 255. -/
theorem sums_lt (bs : Bytes) {f0 f1 : Byte} (h0 : f0.toNat < 255) (h1 : f1.toNat < 255) :
    (sums bs (f0, f1)).1.toNat < 255 ∧ (sums bs (f0, f1)).2.toNat < 255 := by
  induction bs generalizing f0 f1 with
  | nil => exact ⟨h0, h1⟩
  | cons b bs ih =>
    refine ih ?_ ?_
    · rw [sum1Step_toNat]; omega
    · rw [sum2Step_toNat]; omega

/-- The accumulators of a whole buffer. -/
theorem sums_zero_toNat (bs : Bytes) :
    (sums bs (0, 0)).1.toNat = byteSum bs % 255 ∧ (sums bs (0, 0)).2.toNat = weightedSum bs % 255 := by
  obtain ⟨h1, h2⟩ := sums_modEq bs 0 0
  obtain ⟨l1, l2⟩ := sums_lt bs (f0 := 0) (f1 := 0) (by decide) (by decide)
  simp only [byte_zero_toNat, Nat.zero_add, Nat.mul_zero] at h1 h2
  exact ⟨(Nat.mod_eq_of_lt l1).symm.trans h1, (Nat.mod_eq_of_lt l2).symm.trans h2⟩

/-! ### The checksum word -/

theorem cksumWord_toNat (f0 f1 : Byte) : (cksumWord f0 f1).toNat = 256 * f1.toNat + f0.toNat := by
  rw [cksumWord, BitVec.toNat_append, ← Nat.shiftLeft_add_eq_or_of_lt f0.isLt, Nat.shiftLeft_eq, Nat.mul_comm]

theorem cksumWord_eq_ofNat (f0 f1 : Byte) : cksumWord f0 f1 = BitVec.ofNat 16 (256 * f1.toNat + f0.toNat) := by
  rw [← cksumWord_toNat, BitVec.ofNat_toNat, BitVec.setWidth_eq]

@[simp] theorem cksumLo_cksumWord (f0 f1 : Byte) : cksumLo (cksumWord f0 f1) = f0 := by
  refine BitVec.eq_of_toNat_eq ?_
  rw [cksumLo, BitVec.extractLsb'_toNat, cksumWord_toNat]
  have := f0.isLt
  omega

@[simp] theorem cksumHi_cksumWord (f0 f1 : Byte) : cksumHi (cksumWord f0 f1) = f1 := by
  refine BitVec.eq_of_toNat_eq ?_
  rw [cksumHi, BitVec.extractLsb'_toNat, cksumWord_toNat, Nat.shiftRight_eq_div_pow]
  have := f0.isLt
  have := f1.isLt
  omega

/-- The checksum in closed form (rules R62 and R141). -/
theorem fletcher16_eq (bs : Bytes) :
    fletcher16 bs = BitVec.ofNat 16 (256 * (weightedSum bs % 255) + byteSum bs % 255) := by
  obtain ⟨h1, h2⟩ := sums_zero_toNat bs
  rw [fletcher16, cksumWord_eq_ofNat, h1, h2]

/-- Two buffers have one checksum where both sums agree modulo 255. -/
theorem fletcher16_eq_iff (as bs : Bytes) :
    fletcher16 as = fletcher16 bs ↔
      byteSum as % 255 = byteSum bs % 255 ∧ weightedSum as % 255 = weightedSum bs % 255 := by
  rw [fletcher16_eq, fletcher16_eq]
  constructor
  · intro h
    have := congrArg BitVec.toNat h
    simp only [BitVec.toNat_ofNat] at this
    omega
  · rintro ⟨h1, h2⟩
    rw [h1, h2]

/-- A buffer verifies where both its sums are zero modulo 255 (rule R146). -/
theorem fletcher16_eq_zero_iff (bs : Bytes) : fletcher16 bs = 0 ↔ weightedSum bs % 255 = 0 ∧ byteSum bs % 255 = 0 :=
  (fletcher16_eq_iff bs []).trans and_comm

/-! ### The check bytes (rule R144) -/

theorem checkByteA_toNat (f0 f1 : Byte) : (checkByteA f0 f1).toNat = 255 - (f0.toNat + f1.toNat) % 255 := by
  rw [checkByteA, BitVec.toNat_ofNat]
  omega

theorem checkByteB_toNat (f0 a : Byte) : (checkByteB f0 a).toNat = 255 - (f0.toNat + a.toNat) % 255 := by
  rw [checkByteB, BitVec.toNat_ofNat]
  omega

theorem checkByteA_ne_zero (f0 f1 : Byte) : checkByteA f0 f1 ≠ 0 := fun h => by
  have := checkByteA_toNat f0 f1
  rw [h, byte_zero_toNat] at this
  omega

theorem checkByteB_ne_zero (f0 a : Byte) : checkByteB f0 a ≠ 0 := checkByteA_ne_zero f0 a

/-- The two check bytes bring the accumulators to zero, whatever they hold. -/
theorem sums_checkBytes (f0 f1 : Byte) :
    sums [checkByteA f0 f1, checkByteB f0 (checkByteA f0 f1)] (f0, f1) = (0, 0) := by
  have ha := checkByteA_toNat f0 f1
  have hb := checkByteB_toNat f0 (checkByteA f0 f1)
  refine Prod.ext (BitVec.eq_of_toNat_eq ?_) (BitVec.eq_of_toNat_eq ?_)
  · simp only [sums, List.foldl_cons, List.foldl_nil, sum1Step_toNat, byte_zero_toNat]
    omega
  · simp only [sums, List.foldl_cons, List.foldl_nil, sum1Step_toNat, sum2Step_toNat, byte_zero_toNat]
    omega

/-! ### The operations -/

theorem exec_cksum {s : State} {input : Bytes} (h : input.length ≤ s.cfg.maxBuf) :
    exec (.cksum input) s = .next { s with ret := .u16 (fletcher16 input) } := withBuffer_of_le h

theorem exec_verify {s : State} {input : Bytes} (h : input.length ≤ s.cfg.maxBuf) :
    exec (.verify input) s = .next { s with ret := .bool (decide (fletcher16 input = 0)) } := withBuffer_of_le h

/-- Settles O25. -/
theorem checksumOperations : Obligations.ChecksumOperations := by
  intro s
  refine ⟨rfl, fun b => ?_, ?_, checkByteA s.ckSum1 s.ckSum2, _, rfl, checkByteA_toNat _ _, checkByteB_toNat _ _⟩
  · change State.returns _ _ = _
    rw [returns_eq, sum2Step, sum1Step_toNat, sum1Step]
  · change State.returns _ _ = _
    rw [returns_eq, cksumWord_eq_ofNat]

/-- Settles O26. -/
theorem checksumIsWeightedSum : Obligations.ChecksumIsWeightedSum := by
  intro s input h
  rw [← weightedSum_eq_zipIdx]
  refine ⟨?_, ?_⟩
  · rw [exec_cksum h, fletcher16_eq]
    rfl
  · simp only [exec_verify h, fletcher16_eq_zero_iff]
    rfl

/-- One `CK.BYTE` per byte brings the accumulators to the sums of the bytes (rule R151). -/
theorem runOps_ckBytes (bs : Bytes) (s : State) :
    ∃ t, runOps (ckBytes bs) s = .next t ∧ (t.ckSum1, t.ckSum2) = sums bs (s.ckSum1, s.ckSum2) := by
  induction bs generalizing s with
  | nil => exact ⟨s, rfl, rfl⟩
  | cons b bs ih => exact ih _

/-- `CK.READ` on known accumulators (rule R152). -/
theorem exec_ckRead {s : State} {f : Byte × Byte} (h : (s.ckSum1, s.ckSum2) = f) :
    exec .ckRead s = .next { s with ret := .u16 (cksumWord f.1 f.2) } := by
  subst h
  rfl

/-- Settles O27. -/
theorem rollingChecksumAgrees : Obligations.RollingChecksumAgrees := by
  refine ⟨fun s input h => ?_, fun s => ?_⟩
  · obtain ⟨t, hrun, hsums⟩ := runOps_ckBytes input { s with ckSum1 := 0, ckSum2 := 0, ret := .none }
    exact ⟨t, fletcher16 input, hrun, exec_ckRead hsums, exec_cksum h⟩
  · obtain ⟨t, hrun, hsums⟩ := runOps_ckBytes [checkByteA s.ckSum1 s.ckSum2, _] s
    exact ⟨_, _, t, rfl, hrun, exec_ckRead (hsums.trans (sums_checkBytes s.ckSum1 s.ckSum2))⟩

/-- A buffer followed by the check bytes of its checksum verifies (rule R145). -/
theorem fletcher16_append_checkBytes (bs : Bytes) :
    fletcher16 (bs ++ [checkByteA (cksumLo (fletcher16 bs)) (cksumHi (fletcher16 bs)),
      checkByteB (cksumLo (fletcher16 bs)) (checkByteA (cksumLo (fletcher16 bs)) (cksumHi (fletcher16 bs)))]) = 0 := by
  have h := sums_checkBytes (sums bs (0, 0)).1 (sums bs (0, 0)).2
  rw [← cksumLo_cksumWord (sums bs (0, 0)).1 (sums bs (0, 0)).2] at h
  rw [fletcher16, sums_append]
  simp only [fletcher16, cksumLo_cksumWord, cksumHi_cksumWord] at h ⊢
  rw [h]
  rfl

/-- Settles O28. -/
theorem checkBytesVerify : Obligations.CheckBytesVerify := by
  intro s input h
  refine ⟨_, _, checkByteA_ne_zero _ _, checkByteB_ne_zero _ _, withBuffer_of_le h, ?_⟩
  rw [exec_verify (by simpa using h), decide_eq_true (fletcher16_append_checkBytes input)]

/-- Settles O29: the plain sum changes by the difference of the two bytes, which is a multiple of 255 only between `0x00`
and `0xFF`. -/
theorem verifyDetectsOneByteChange : Obligations.VerifyDetectsOneByteChange := by
  intro s before after x y hlen hxy h0F hF0 hx
  have hfits (z : Byte) : (before ++ z :: after).length ≤ s.cfg.maxBuf := by simp; omega
  rw [exec_verify (hfits x)] at hx
  rw [exec_verify (hfits y)]
  have hzero : fletcher16 (before ++ x :: after) = 0 := by simpa using hx
  have hne : fletcher16 (before ++ y :: after) ≠ 0 := by
    rw [Ne, fletcher16_eq_zero_iff]
    rw [fletcher16_eq_zero_iff] at hzero
    simp only [byteSum_append, byteSum_cons] at hzero ⊢
    bv_omega
  rw [decide_eq_false hne]

/-- Settles O30: the plain sum does not see a swap, the weighted one sees the distance times the difference. -/
theorem checksumIsOrderSensitive : Obligations.ChecksumIsOrderSensitive := by
  intro before middle after x y
  have hsum : byteSum (before ++ x :: middle ++ y :: after) = byteSum (before ++ y :: middle ++ x :: after) := by
    simp only [byteSum_append, byteSum_cons]
    omega
  have hdiff : (weightedSum (before ++ y :: middle ++ x :: after) : Int) - weightedSum (before ++ x :: middle ++ y :: after) =
      (middle.length + 1 : Int) * ((y.toNat : Int) - x.toNat) := by
    simp only [weightedSum_append, weightedSum_cons, byteSum_append, byteSum_cons, List.length_cons]
    push_cast
    ring
  rw [fletcher16_eq_iff, and_iff_right (congrArg (· % 255) hsum), ← hdiff]
  exact Nat.modEq_iff_dvd

end Sys2Proof.Machine
end

section
/-! Packets on the link: the reader and the stuffed link byte by byte (rules R161 to R167), and a whole packet between two
others in either link mode (rules R95, R101, R160 and R169). -/

namespace Sys2Proof.Machine

open Sys2Proof

/-! ### One byte -/

/-- `s` with context `L` and the returned value as given. -/
def State.withLink (s : State) (c : Codec) (r : Ret) : State := { s with ctxL := c, ret := r }

theorem readerByte_scan_other {s : State} {b : Byte} (h : s.rxPhase = .scan) (hb : b ≠ 0x4E) : s.readerByte b = s := by
  simp only [State.readerByte, h]
  exact if_neg hb

theorem exec_linkRxbyte {s : State} (b : Byte) (hmode : s.cfg.linkMode = .stuffed) (h : s.rxPhase ≠ .ready) :
    exec (.linkRxbyte b) s = .next { s.linkByte b with ret := .none } :=
  (inLinkMode_of_eq hmode).trans (whileReading_of_ne h)

theorem exec_rxFrameEnd {s : State} (hmode : s.cfg.linkMode = .stuffed) (h : s.rxPhase ≠ .ready) :
    exec .rxFrameEnd s = .next { s.frameEnd with ret := .none } :=
  (inLinkMode_of_eq hmode).trans (whileReading_of_ne h)

theorem frameEnd_of_scan {s : State} (h : s.rxPhase = .scan) : s.frameEnd = s := if_pos h

theorem frameEnd_of_ne_scan {s : State} (h : s.rxPhase ≠ .scan) : s.frameEnd = { s.countDrop with rxPhase := .scan } :=
  if_neg h

/-- The delimiter of the link ends the frame. -/
theorem linkByte_delimiter (s : State) :
    s.linkByte s.cfg.linkDelim = s.frameEnd.withLink s.ctxL.unstuffEnd.2 s.frameEnd.ret := by
  rw [State.linkByte, if_pos rfl]
  by_cases h : s.rxPhase = .scan
  · rw [frameEnd_of_scan h]
    exact frameEnd_of_scan h
  · rw [frameEnd_of_ne_scan h]
    exact frameEnd_of_ne_scan h

/-- Any other byte goes through the unstuffer, and what that releases through the reader. -/
theorem linkByte_other {s : State} {b : Byte} (hb : b ≠ s.cfg.linkDelim) :
    s.linkByte b =
      (s.ctxL.unstuffByte b).1.foldl State.readerByte { s with ctxL := (s.ctxL.unstuffByte b).2 } := if_neg hb

/-- Settles O31, phase by phase. -/
theorem readerTakesByteByPhase : Obligations.ReaderTakesByteByPhase := by
  intro s hraw
  have rx {p : RxPhase} (b : Byte) (hp : s.rxPhase = p) (hne : p ≠ .ready) :
      exec (.rxByte b) s = .next { s.readerByte b with ret := .none } := exec_rxByte b hraw (hp ▸ hne)
  have start (hp : s.rxPhase = .scan) : exec (.rxByte 0x4E) s = .next { s with rxPhase := .pid, ret := .none } := by
    rw [rx _ hp nofun, readerByte_start hp]
  refine ⟨start, rfl, start, fun b hp hb => ?_, fun b hp => ?_, fun b hp => ?_, fun hp => ?_, fun b hp hb => ?_,
    fun b hp hlen => ?_, fun b hp hlen => ?_, fun b hp => ?_, fun b hp => ?_⟩
  · rw [rx b hp nofun, readerByte_scan_other hp hb]
  · rw [rx b hp nofun, readerByte_pid b hp]
  · rw [rx b hp nofun, readerByte_type b hp]
  · rw [rx 0 hp nofun, readerByte_len 0 hp]
    rfl
  · rw [rx b hp nofun, readerByte_len b hp, if_neg hb]
  · rw [rx b hp nofun, readerByte_payload b hp, if_neg hlen, ← hp]
  · rw [rx b hp nofun, readerByte_payload b hp, if_pos hlen]
  · rw [rx b hp nofun, readerByte_ck0 b hp]
  · rw [rx b hp nofun, readerByte_ck1 b hp]

/-- Settles O35: a boundary, and any other byte by what the unstuffer does with it. -/
theorem stuffedLinkOperations : Obligations.StuffedLinkOperations := by
  intro s hmode hready
  have link (b : Byte) := exec_linkRxbyte b hmode hready
  refine ⟨fun hp => ?_, fun hp => ?_, ?_, fun b hb hs => ?_, fun b hb hs hblock => ?_, fun b hb h0 hs hblock hcode => ?_,
    fun b hb h0 hs hblock hcode => ?_⟩
  · rw [exec_rxFrameEnd hmode hready, frameEnd_of_scan hp]
  · rw [exec_rxFrameEnd hmode hready, frameEnd_of_ne_scan hp]
    rfl
  · rw [link, linkByte_delimiter]
    by_cases hp : s.rxPhase = .scan
    · rw [frameEnd_of_scan hp, if_pos hp, ← hp]
      rfl
    · rw [frameEnd_of_ne_scan hp, if_neg hp]
      rfl
  · rw [link, linkByte_other hb, Codec.unstuffByte_stopped b hs]
    rfl
  · rw [link, linkByte_other hb, Codec.unstuffByte_run b hs hblock]
    rfl
  · rw [link, linkByte_other hb, Codec.unstuffByte_code h0 hs hblock, separator, if_pos hcode]
    rfl
  · rw [link, linkByte_other hb, Codec.unstuffByte_code h0 hs hblock, separator, if_neg hcode]
    rfl

/-! ### The reader and the dispatcher do not see context `L` nor what was returned -/

theorem readerByte_withLink (s : State) (c : Codec) (r : Ret) (b : Byte) :
    (s.withLink c r).readerByte b = (s.readerByte b).withLink c r := by
  cases h : s.rxPhase
  case scan =>
    by_cases hb : b = 0x4E
    · subst hb
      rw [readerByte_start h, readerByte_start (s := s.withLink c r) h]
      rfl
    · rw [readerByte_scan_other h hb, readerByte_scan_other (s := s.withLink c r) h hb]
  all_goals
    simp only [State.readerByte, State.withLink, h]

theorem answerCommand_withLink (s : State) (c : Codec) (r : Ret) :
    (s.withLink c r).answerCommand = (s.answerCommand.1, s.answerCommand.2.withLink c r) := by
  by_cases h : s.rxLen = 0
  · rw [answerCommand_of_len_zero h, answerCommand_of_len_zero (s := s.withLink c r) h]
    rfl
  · cases hp : s.rxPayload with
    | nil =>
      rw [answerCommand_of_nil h hp, answerCommand_of_nil (s := s.withLink c r) h hp]
      rfl
    | cons idx params =>
      cases hm : s.cfg.minParams[idx.toNat]? with
      | none =>
        rw [answerCommand_of_no_handler h hp hm, answerCommand_of_no_handler (s := s.withLink c r) h hp hm]
        rfl
      | some m =>
        rcases Nat.lt_or_ge params.length m with hlt | hle
        · rw [answerCommand_of_few_params h hp hm hlt, answerCommand_of_few_params (s := s.withLink c r) h hp hm hlt]
          rfl
        · rw [answerCommand_of_call h hp hm hle, answerCommand_of_call (s := s.withLink c r) h hp hm hle]
          rfl

theorem answer_withLink (s : State) (c : Codec) (r : Ret) :
    (s.withLink c r).answer = (s.answer.1, s.answer.2.withLink c r) := by
  have hcommand := answerCommand_withLink s c r
  unfold State.answer
  have hcfg : (s.withLink c r).cfg = s.cfg := rfl
  have htype : (s.withLink c r).rxType = s.rxType := rfl
  rw [hcfg, htype, hcommand]
  split
  all_goals rfl

theorem dispatch_withLink (s : State) (c : Codec) (r : Ret) : (s.withLink c r).dispatch = s.dispatch.withLink c r := by
  by_cases h : s.latch.dropsPacket = true
  · rw [dispatch_of_drops h, dispatch_of_drops (s := s.withLink c r) h]
    rfl
  · rw [dispatch_of_answers h, dispatch_of_answers (s := s.withLink c r) h]
    change State.respond ((s.latch.withLink c r).answer.2) ((s.latch.withLink c r).answer.1) = _
    rw [answer_withLink]
    rfl

/-! ### Bytes as the reader sees them, with the dispatch of what they complete -/

/-- The reader takes one byte, and the dispatcher the packet that it completes. -/
def State.readerByteDispatch (s : State) (b : Byte) : State :=
  if (s.readerByte b).rxPhase = .ready then (s.readerByte b).dispatch else s.readerByte b

/-- Several bytes likewise. -/
def State.readerBytes (s : State) (bs : Bytes) : State := bs.foldl State.readerByteDispatch s

theorem readerByteDispatch_withLink (s : State) (c : Codec) (r : Ret) (b : Byte) :
    (s.withLink c r).readerByteDispatch b = (s.readerByteDispatch b).withLink c r := by
  unfold State.readerByteDispatch
  rw [readerByte_withLink, dispatch_withLink]
  exact (apply_ite (State.withLink · c r) _ _ _).symm

theorem readerByteDispatch_cfg (s : State) (b : Byte) : (s.readerByteDispatch b).cfg = s.cfg := by
  unfold State.readerByteDispatch
  split
  · rw [dispatch_cfg, readerByte_frame]
  · rw [readerByte_frame]

theorem readerByteDispatch_ctxL (s : State) (b : Byte) : (s.readerByteDispatch b).ctxL = s.ctxL := by
  unfold State.readerByteDispatch
  split
  · rw [dispatch_frame, readerByte_frame]
  · rw [readerByte_frame]

theorem readerByteDispatch_phase (s : State) (b : Byte) : (s.readerByteDispatch b).rxPhase ≠ .ready := by
  unfold State.readerByteDispatch
  split
  · rw [dispatch_rxPhase]
    nofun
  · assumption

/-- Where the reader holds no packet after the bytes, none was held on the way, and nothing was dispatched. -/
theorem readerBytes_eq_foldl {s : State} (bs : Bytes) (h : (bs.foldl State.readerByte s).rxPhase ≠ .ready) :
    s.readerBytes bs = bs.foldl State.readerByte s := by
  induction bs generalizing s with
  | nil => rfl
  | cons b bs ih =>
    have hb : (s.readerByte b).rxPhase ≠ .ready := fun hb => h (by rwa [List.foldl_cons, foldl_readerByte_ready bs hb])
    have hstep : s.readerByteDispatch b = s.readerByte b := if_neg hb
    rw [State.readerBytes, List.foldl_cons, hstep]
    exact ih h

/-- The bytes of an envelope come to the dispatch of it. -/
theorem readerBytes_envelope {s : State} (pid ty : Byte) (payload : Bytes) (ck0 ck1 : Byte) (h : s.rxPhase = .scan)
    (hlen : payload.length ≤ 255) :
    s.readerBytes (envelopeBytes pid ty payload ck0 ck1) = (s.holding pid ty payload ck0 ck1).dispatch := by
  have hbefore := foldl_readerByte_allButLast pid ty ck0 payload h hlen
  rw [envelopeBytes_eq_concat, State.readerBytes, List.foldl_append]
  change (State.readerBytes s _).readerByteDispatch ck1 = _
  rw [readerBytes_eq_foldl _ (by rw [hbefore]; nofun), hbefore, State.readerByteDispatch, readerByte_ck1 ck1 rfl]
  rfl

/-! ### Bytes of either link -/

theorem transportBytes_append (s : State) (as bs : Bytes) :
    s.transportBytes (as ++ bs) = (s.transportBytes as).transportBytes bs := List.foldl_append

theorem transportByteDispatch_cfg (s : State) (b : Byte) : (s.transportByteDispatch b).cfg = s.cfg := by
  rw [transportByteDispatch_frame]

/-- On a raw link the reader takes the bytes as they are. -/
theorem transportBytes_raw {s : State} (bs : Bytes) (h : s.cfg.linkMode = .raw) : s.transportBytes bs = s.readerBytes bs := by
  induction bs generalizing s with
  | nil => rfl
  | cons b bs ih =>
    have hbyte : s.transportByteDispatch b = s.readerByteDispatch b := by
      simp only [State.transportByteDispatch, State.readerByteDispatch, State.transportByte, h]
    rw [State.transportBytes, List.foldl_cons, hbyte]
    exact ih (by rw [readerByteDispatch_cfg, h])

/-- On a stuffed link it takes what the unstuffer releases; one byte that is not the delimiter. -/
theorem transportByteDispatch_stuffed {s : State} {b : Byte} (hmode : s.cfg.linkMode = .stuffed)
    (hb : b ≠ s.cfg.linkDelim) (hp : s.rxPhase ≠ .ready) :
    s.transportByteDispatch b =
      (s.readerBytes (s.ctxL.unstuffByte b).1).withLink (s.ctxL.unstuffByte b).2 s.ret := by
  simp only [State.transportByteDispatch, State.transportByte, hmode, linkByte_other hb]
  match h : (s.ctxL.unstuffByte b).1, unstuffByte_length s.ctxL b with
  | [], _ => exact if_neg hp
  | [x], _ =>
    change State.readerByteDispatch (s.withLink _ s.ret) x = _
    rw [readerByteDispatch_withLink]
    rfl
  | _ :: _ :: _, h2 => simp at h2

/-- Context `L` after bytes that go through the unstuffer. -/
def Codec.afterBytes (c : Codec) (bs : Bytes) : Codec := bs.foldl (fun c b => (c.unstuffByte b).2) c

theorem readerBytes_withLink (s : State) (c : Codec) (r : Ret) (bs : Bytes) :
    (s.withLink c r).readerBytes bs = (s.readerBytes bs).withLink c r :=
  List.foldl_hom (fun s : State => s.withLink c r) fun s b => readerByteDispatch_withLink s c r b

theorem readerBytes_cfg (s : State) (bs : Bytes) : (s.readerBytes bs).cfg = s.cfg := by
  induction bs generalizing s with
  | nil => rfl
  | cons b bs ih => exact (ih _).trans (readerByteDispatch_cfg s b)

theorem readerBytes_phase {s : State} (bs : Bytes) (h : s.rxPhase ≠ .ready) : (s.readerBytes bs).rxPhase ≠ .ready := by
  induction bs generalizing s with
  | nil => exact h
  | cons b bs ih => exact ih (readerByteDispatch_phase s b)

theorem readerBytes_append (s : State) (as bs : Bytes) :
    s.readerBytes (as ++ bs) = (s.readerBytes as).readerBytes bs := List.foldl_append

/-- The bytes of a stuffed frame, its delimiter not among them: the reader takes what they decode to. -/
theorem transportBytes_stuffed {s : State} (bs : Bytes) (hmode : s.cfg.linkMode = .stuffed)
    (hdelim : s.cfg.linkDelim ∉ bs) (hp : s.rxPhase ≠ .ready) :
    s.transportBytes bs = (s.readerBytes (s.ctxL.decodes bs)).withLink (s.ctxL.afterBytes bs) s.ret := by
  induction bs generalizing s with
  | nil =>
    have hnil : s.ctxL.decodes [] = [] := by simp [Codec.decodes, decLoop]
    rw [hnil]
    rfl
  | cons b bs ih =>
    obtain ⟨hb, hbs⟩ : b ≠ s.cfg.linkDelim ∧ s.cfg.linkDelim ∉ bs := by simpa [eq_comm] using hdelim
    have hbyte := transportByteDispatch_stuffed hmode hb hp
    rw [State.transportBytes, List.foldl_cons, hbyte, Codec.decodes_cons, readerBytes_append]
    refine (ih ?_ ?_ ?_).trans ?_
    · exact (congrArg Config.linkMode (readerBytes_cfg s _)).trans hmode
    · exact (congrArg Config.linkDelim (readerBytes_cfg s _)) ▸ hbs
    · exact readerBytes_phase _ hp
    · rw [readerBytes_withLink]
      rfl

/-! ### The unstuffer over a frame -/

/-- A frame boundary puts the decoder registers where they were at the last one. -/
theorem Codec.unstuffEnd_unstuffByte (c : Codec) (b : Byte) : (c.unstuffByte b).2.unstuffEnd.2 = c.unstuffEnd.2 := by
  unfold Codec.unstuffByte
  split
  · rfl
  · split
    · rfl
    · split
      · rfl
      · rfl

theorem Codec.unstuffEnd_afterBytes (c : Codec) (bs : Bytes) : (c.afterBytes bs).unstuffEnd.2 = c.unstuffEnd.2 := by
  induction bs generalizing c with
  | nil => rfl
  | cons b bs ih => exact (ih _).trans (c.unstuffEnd_unstuffByte b)

/-- At the end of a frame with no packet begun, the delimiter puts the decoder registers back. -/
theorem transportBytes_delimiter {s : State} (hmode : s.cfg.linkMode = .stuffed) (hp : s.rxPhase = .scan) :
    s.transportBytes [s.cfg.linkDelim] = s.withLink s.ctxL.unstuffEnd.2 s.ret := by
  have hbyte : s.transportByte s.cfg.linkDelim = s.withLink s.ctxL.unstuffEnd.2 s.ret := by
    simp only [State.transportByte, hmode, linkByte_delimiter, frameEnd_of_scan hp]
  have hphase : (s.transportByte s.cfg.linkDelim).rxPhase ≠ .ready := by
    rw [hbyte]
    exact fun h => nomatch hp.symm.trans h
  exact (if_neg hphase).trans hbyte

theorem dispatch_ctxL (s : State) : s.dispatch.ctxL = s.ctxL := by rw [dispatch_frame]

theorem dispatch_ret (s : State) : s.dispatch.ret = s.ret := by rw [dispatch_frame]

/-! ### A whole packet between two others -/

/-- In either link mode the bytes of a packet's envelope come to the dispatch of that packet, and leave the link as it was. -/
theorem transportBytes_packet {s : State} (pid ty : Byte) (payload : Bytes) (ck0 ck1 : Byte) (h : s.betweenPackets)
    (hlen : payload.length ≤ 255) :
    s.transportBytes (linkFrame s.cfg (envelopeBytes pid ty payload ck0 ck1)) =
      (s.holding pid ty payload ck0 ck1).dispatch := by
  obtain ⟨hscan, hlink⟩ := h
  cases hmode : s.cfg.linkMode with
  | raw =>
    simp only [linkFrame, hmode]
    rw [transportBytes_raw _ hmode, readerBytes_envelope pid ty payload ck0 ck1 hscan hlen]
  | stuffed =>
    obtain ⟨hdelim, hd, hcode, hblock, hstop⟩ := hlink hmode
    have hend : s.ctxL.unstuffEnd.2 = s.ctxL := by
      rw [Codec.unstuffEnd, ← hcode, ← hblock, ← hstop]
    have hdec (bs : Bytes) : s.ctxL.decodes (enc bs 0) = bs := by
      rw [Codec.decodes_of_running _ hstop, hd, hcode, hblock]
      exact dec_enc bs 0
    have hfree : s.cfg.linkDelim ∉ enc (envelopeBytes pid ty payload ck0 ck1) 0 := by
      rw [hdelim]
      exact zero_not_mem_encOpenRun [] _ (Nat.zero_le _) List.not_mem_nil
    simp only [linkFrame, hmode, hdelim]
    rw [transportBytes_append, transportBytes_stuffed _ hmode hfree (by rw [hscan]; nofun), hdec,
      readerBytes_envelope pid ty payload ck0 ck1 hscan hlen]
    let held := (s.holding pid ty payload ck0 ck1).dispatch
    let after := held.withLink (s.ctxL.afterBytes (enc (envelopeBytes pid ty payload ck0 ck1) 0)) s.ret
    have hcfg : after.cfg = s.cfg := dispatch_cfg _
    have hmode' : after.cfg.linkMode = .stuffed := hcfg ▸ hmode
    have hdelim' : after.cfg.linkDelim = 0 := hcfg ▸ hdelim
    calc after.transportBytes [0] = after.withLink after.ctxL.unstuffEnd.2 s.ret := by
          rw [← hdelim', transportBytes_delimiter hmode' (dispatch_rxPhase _)]
          rfl
      _ = held.withLink s.ctxL s.ret := by
          change held.withLink (Codec.unstuffEnd (Codec.afterBytes _ _)).2 s.ret = _
          rw [Codec.unstuffEnd_afterBytes, hend]
      _ = held.withLink held.ctxL held.ret := by
          rw [dispatch_ctxL, dispatch_ret]
          rfl

/-! ### Packet rows -/

/-- The row of a packet is the crossing of its envelope. -/
theorem exec_packetRow {s : State} {i : Instr} {ty pid ck0 ck1 : Byte} {payload : Bytes}
    (h : i = .pktIdentify pid payload ck0 ck1 ∧ ty = s.cfg.tIdentify ∨
      i = .pktStatus pid payload ck0 ck1 ∧ ty = s.cfg.tStatus ∨
      i = .pktCommand pid payload ck0 ck1 ∧ ty = s.cfg.tCommand ∨
      i = .pktPing pid payload ck0 ck1 ∧ ty = s.cfg.tPing ∨
      i = .pktResponse pid payload ck0 ck1 ∧ ty = s.cfg.tResponse ∨
      i = .pktUnknown ty pid payload ck0 ck1) :
    exec i s = receivePacket ty pid payload ck0 ck1 s := by
  rcases h with ⟨rfl, rfl⟩ | ⟨rfl, rfl⟩ | ⟨rfl, rfl⟩ | ⟨rfl, rfl⟩ | ⟨rfl, rfl⟩ | rfl <;> rfl

/-- A packet row where it runs. -/
theorem receivePacket_of_reading {s : State} {ty pid ck0 ck1 : Byte} {payload : Bytes} (h : s.rxPhase ≠ .ready)
    (hlen : payload.length ≤ 255) :
    receivePacket ty pid payload ck0 ck1 s =
      .next { s.transportBytes (linkFrame s.cfg (envelopeBytes pid ty payload ck0 ck1)) with ret := .none } :=
  receivePacket_eq_next.mpr ⟨hlen, h, rfl⟩

/-- Between two packets a packet row is the dispatch of its packet. -/
theorem receivePacket_of_betweenPackets {s : State} {ty pid ck0 ck1 : Byte} {payload : Bytes} (h : s.betweenPackets)
    (hlen : payload.length ≤ 255) :
    receivePacket ty pid payload ck0 ck1 s =
      .next { (s.holding pid ty payload ck0 ck1).dispatch with ret := .none } := by
  rw [receivePacket_of_reading (by rw [h.1]; nofun) hlen, transportBytes_packet pid ty payload ck0 ck1 h hlen]

/-- Settles O33: the bytes on the link come to the dispatch, which leaves context `L` as it was. -/
theorem packetRowsCrossEitherLink : Obligations.PacketRowsCrossEitherLink := by
  intro s pid ck0 ck1 payload h hlen i ty hi
  refine ⟨_, (exec_packetRow hi).trans (receivePacket_of_betweenPackets h hlen), exec_pktDispatch rfl, dispatch_rxPhase _, ?_⟩
  rw [dispatch_frame]
  exact h.2

/-! ### The bytes one operation at a time -/

theorem dispatch_with_ret (s : State) (r : Ret) : State.dispatch { s with ret := r } = { s.dispatch with ret := r } :=
  (dispatch_withLink s s.ctxL r).trans (by rw [← dispatch_ctxL s]; rfl)

theorem frameEnd_with_ret (s : State) (r : Ret) : State.frameEnd { s with ret := r } = { s.frameEnd with ret := r } := by
  by_cases h : s.rxPhase = .scan
  · rw [frameEnd_of_scan h]
    exact frameEnd_of_scan h
  · rw [frameEnd_of_ne_scan h]
    exact frameEnd_of_ne_scan h

theorem linkByte_with_ret (s : State) (r : Ret) (b : Byte) :
    State.linkByte { s with ret := r } b = { s.linkByte b with ret := r } := by
  unfold State.linkByte
  dsimp only
  split
  · exact frameEnd_with_ret { s with ctxL := s.ctxL.unstuffEnd.2 } r
  · exact foldl_readerByte_ret { s with ctxL := (s.ctxL.unstuffByte b).2 } r _

theorem transportByte_with_ret (s : State) (r : Ret) (b : Byte) :
    State.transportByte { s with ret := r } b = { s.transportByte b with ret := r } := by
  unfold State.transportByte
  dsimp only
  split
  · exact readerByte_ret s r b
  · exact linkByte_with_ret s r b

theorem transportByteDispatch_with_ret (s : State) (r : Ret) (b : Byte) :
    State.transportByteDispatch { s with ret := r } b = { s.transportByteDispatch b with ret := r } := by
  unfold State.transportByteDispatch
  rw [transportByte_with_ret, dispatch_with_ret]
  by_cases h : (s.transportByte b).rxPhase = .ready <;> simp only [h, if_true, if_false]

theorem transportBytes_with_ret (s : State) (r : Ret) (bs : Bytes) :
    State.transportBytes { s with ret := r } bs = { s.transportBytes bs with ret := r } := by
  unfold State.transportBytes
  exact List.foldl_hom (fun s : State => { s with ret := r }) fun s b => transportByteDispatch_with_ret s r b

/-- The operation by which bytes cross the link in mode `m` hands its byte to the transport (rule R160). -/
def TakesByte (m : LinkMode) (op : Byte → Instr) : Prop :=
  ∀ (s : State) (b : Byte), s.cfg.linkMode = m → s.rxPhase ≠ .ready →
    exec (op b) s = .next { s.transportByte b with ret := .none }

theorem takesByte_rxByte : TakesByte .raw .rxByte := fun s b hmode h => by
  simp only [exec_rxByte b hmode h, State.transportByte, hmode]

theorem takesByte_linkRxbyte : TakesByte .stuffed .linkRxbyte := fun s b hmode h => by
  simp only [exec_linkRxbyte b hmode h, State.transportByte, hmode]

/-- One byte, with the dispatch of what it completes (rule R101). -/
theorem feedBytes_cons {m : LinkMode} {op : Byte → Instr} (hop : TakesByte m op) {s : State} (b : Byte) (bs : Bytes)
    (hmode : s.cfg.linkMode = m) (h : s.rxPhase ≠ .ready) :
    feedBytes op (b :: bs) s = feedBytes op bs { s.transportByteDispatch b with ret := .none } := by
  simp only [feedBytes, hop s b hmode h]
  by_cases hready : (s.transportByte b).rxPhase = .ready
  · have hdispatch : s.transportByteDispatch b = (s.transportByte b).dispatch := if_pos hready
    rw [if_pos hready, exec_pktDispatch (by exact hready), dispatch_with_ret, hdispatch]
  · have hquiet : s.transportByteDispatch b = s.transportByte b := if_neg hready
    rw [if_neg hready, hquiet]

/-- Bytes that come one per operation do what the transport does with them. -/
theorem feedBytes_eq {m : LinkMode} {op : Byte → Instr} (hop : TakesByte m op) (bs : Bytes) {s : State}
    (hmode : s.cfg.linkMode = m) (h : s.rxPhase ≠ .ready) (hret : bs ≠ [] ∨ s.ret = .none) :
    feedBytes op bs s = .next { s.transportBytes bs with ret := .none } := by
  induction bs generalizing s with
  | nil =>
    have hret : s.ret = .none := by simpa using hret
    rw [← hret]
    rfl
  | cons b bs ih =>
    have hmode' := (congrArg Config.linkMode (transportByteDispatch_cfg s b)).trans hmode
    rw [feedBytes_cons hop b bs hmode h]
    refine (ih ?_ ?_ (.inr ?_)).trans ?_
    · exact hmode'
    · exact transportByteDispatch_phase s b
    · rfl
    · rw [transportBytes_with_ret]
      rfl

/-- After bytes of the transport and the dispatch of what they complete, no packet is held. -/
theorem transportBytes_phase {s : State} (bs : Bytes) (h : s.rxPhase ≠ .ready) : (s.transportBytes bs).rxPhase ≠ .ready := by
  induction bs generalizing s with
  | nil => exact h
  | cons b bs ih => exact ih (transportByteDispatch_phase s b)

/-- Settles O34: the row takes the bytes as the transport does, and so does one operation per byte. -/
theorem packetRowsAreTheirBytes : Obligations.PacketRowsAreTheirBytes := by
  intro s pid ck0 ck1 payload h hlen i ty hi
  have hrow := (exec_packetRow hi).trans (receivePacket_of_reading h hlen)
  refine ⟨⟨_, hrow, transportBytes_phase _ h⟩, fun hraw => ?_, fun hstuffed => ?_⟩
  · rw [hrow, rxBytes, feedBytes_eq takesByte_rxByte _ hraw h (.inl (by simp [envelopeBytes])), linkFrame, hraw]
  · rw [hrow, linkRxBytes, feedBytes_eq takesByte_linkRxbyte _ hstuffed h (.inl (by simp)), linkFrame, hstuffed]

/-! ### The serializer (rules R182 and R183) -/

theorem cksumHi_append_cksumLo (ck : BitVec 16) : cksumHi ck ++ cksumLo ck = ck := by
  refine BitVec.eq_of_toNat_eq ((cksumWord_toNat _ _).trans ?_)
  rw [cksumHi, cksumLo, BitVec.extractLsb'_toNat, BitVec.extractLsb'_toNat, Nat.shiftRight_eq_div_pow]
  have := ck.isLt
  omega

/-- The two wire bytes of a checksum, in the configured order, and what they are assembled to (rule R86). -/
theorem wireCksum_eq (o : CksumOrder) (ck : BitVec 16) :
    ∃ ck0 ck1, wireCksum o ck = [ck0, ck1] ∧ assembleCksum o ck0 ck1 = ck ∧
      (o = .loFirst → ck0 = cksumLo ck ∧ ck1 = cksumHi ck) ∧ (o = .hiFirst → ck0 = cksumHi ck ∧ ck1 = cksumLo ck) := by
  cases o with
  | loFirst => exact ⟨_, _, rfl, cksumHi_append_cksumLo ck, fun _ => ⟨rfl, rfl⟩, nofun⟩
  | hiFirst => exact ⟨_, _, rfl, cksumHi_append_cksumLo ck, nofun, fun _ => ⟨rfl, rfl⟩⟩

/-- The serializer's envelope, by its two checksum bytes. -/
theorem serialize_eq {c : Config} {pid ty ck0 ck1 : Byte} {p : Bytes}
    (h : wireCksum c.cksumOrder (fletcher16 (ty :: BitVec.ofNat 8 p.length :: p)) = [ck0, ck1]) :
    serialize c pid ty p = envelopeBytes pid ty p ck0 ck1 := by
  simp only [serialize, h, envelopeBytes]

theorem exec_txSerialize {s : State} (pid ty : Byte) {p : Bytes} (h : s.rxPhase ≠ .ready) (hlen : p.length ≤ 253) :
    exec (.txSerialize pid ty p) s = .next { s with ret := .bytes (serialize s.cfg pid ty p) } :=
  (if_neg (Nat.not_lt.mpr hlen)).trans (whileReading_of_ne h)

/-- Settles O43: the envelope's check bytes are the two halves of the checksum, and the decoder reads the row of its type. -/
theorem serializeBuildsEnvelope : Obligations.SerializeBuildsEnvelope := by
  intro s pid ty p h hlen
  obtain ⟨ck0, ck1, hwire, _, hlo, hhi⟩ := wireCksum_eq s.cfg.cksumOrder (fletcher16 (ty :: BitVec.ofNat 8 p.length :: p))
  refine ⟨_, _, ck0, ck1, cksumHi_append_cksumLo _, hlo, hhi, ?_, _, decode_envelope s.cfg pid ty ck0 ck1 (by omega),
    fun hnodup => ?_⟩
  · rw [exec_txSerialize pid ty h hlen, serialize_eq hwire]
    rfl
  · obtain ⟨kIdentify, kStatus, kCommand, kPing, kResponse⟩ := packetKind_typeCodes hnodup
    refine ⟨?_, ?_, ?_, ?_, ?_, fun hty => ?_⟩
    · rintro rfl; simp only [envelopeInstr, kIdentify]
    · rintro rfl; simp only [envelopeInstr, kStatus]
    · rintro rfl; simp only [envelopeInstr, kCommand]
    · rintro rfl; simp only [envelopeInstr, kPing]
    · rintro rfl; simp only [envelopeInstr, kResponse]
    · simp only [envelopeInstr, packetKind_of_not_mem hty]

/-- Settles O44: between two packets the envelope is dispatched as it was sent, its checksum is the one computed, and so
neither ground of a drop is given. -/
theorem serializedPacketsVerify : Obligations.SerializedPacketsVerify := by
  intro s pid ty p _ h hlen
  obtain ⟨ck0, ck1, hwire, hassemble, _⟩ :=
    wireCksum_eq s.cfg.cksumOrder (fletcher16 (ty :: BitVec.ofNat 8 p.length :: p))
  have hscan : s.rxPhase ≠ .ready := by rw [h.1]; nofun
  let held := s.holding pid ty p ck0 ck1
  have hok : held.latch.pktCksumOk = true := decide_eq_true hassemble
  have hshort : held.rxLen.toNat = p.length := Nat.mod_eq_of_lt (by omega)
  have hkeep : ¬ held.latch.dropsPacket = true := by
    simp only [State.dropsPacket, latch_rxLen, hshort, hok, maxLen]
    simpa using hlen
  refine ⟨ck0, ck1, _, ?_, receivePacket_of_betweenPackets h (by omega), ?_⟩
  · rw [exec_txSerialize pid ty hscan hlen, serialize_eq hwire]
  · change held.dispatch.pktCksumOk = true ∧ held.dispatch.pktDropped = s.pktDropped
    rw [dispatch_of_answers hkeep, respond_pktCksumOk, respond_pktDropped, answer_frame]
    exact ⟨hok, rfl⟩

end Sys2Proof.Machine
end

section
/-! The dispatcher: what a held packet of each type is answered with (rules R93, R94 and R170 to R182), and the rows that
name the code of a response (rules R84, R91 and R281). -/

namespace Sys2Proof.Machine

open Sys2Proof

/-! ### Dropped or answered -/

/-- The checksum that a dispatch stores is the received one (rule R86). -/
theorem receivedCksum_eq (s : State) : s.receivedCksum = assembleCksum s.cfg.cksumOrder s.rxCk0 s.rxCk1 := by
  unfold State.receivedCksum assembleCksum
  cases s.cfg.cksumOrder <;> rfl

/-- The state between the latch and the answer, with no value returned. -/
theorem afterDispatch_eq_latch (s : State) : s.afterDispatch = { s.latch with ret := .none } := by
  simp only [State.afterDispatch, State.latch, State.cksumMatches, receivedCksum_eq, cksumVerdict]

/-- Which packets are dropped (rules R171 and R172). -/
theorem dropsPacket_iff (s : State) :
    s.latch.dropsPacket = true ↔ 253 < s.rxLen.toNat ∨ (s.cfg.checksumStrict = true ∧ ¬ s.cksumMatches) := by
  simp only [State.dropsPacket, Bool.or_eq_true, Bool.and_eq_true, Bool.not_eq_true', decide_eq_true_eq]
  simp only [latch_rxLen, latch_cfg, latch_pktCksumOk, cksumVerdict, State.cksumMatches, receivedCksum_eq, maxLen,
    decide_eq_false_iff_not]

theorem not_dropsPacket_of_accepts {s : State} (h : s.accepts) : ¬ s.latch.dropsPacket = true := by
  obtain ⟨_, hlen, hstrict⟩ := h
  rw [dropsPacket_iff]
  rintro (hlong | ⟨hs, hbad⟩)
  · omega
  · exact hbad (hstrict hs)

/-! ### The rows of the codes -/

/-- The rows of the codes: each word is its code, and each row answers with it. -/
theorem exec_errorRow {i : Instr} (hi : i ∈ errorRows) (s : State) :
    ∃ code, encode s.cfg i = ⟨.errorCode, [code]⟩ ∧ WellFormed s.cfg i = true ∧ exec i s = respondCode code s := by
  simp only [errorRows, List.mem_cons, List.not_mem_nil, or_false] at hi
  rcases hi with rfl | rfl | rfl | rfl | rfl | rfl
  all_goals exact ⟨_, rfl, rfl, rfl⟩

theorem respondCode_of_other {s : State} {code : Byte} (hready : s.rxPhase = .ready) (h : s.answerCode ≠ some code) :
    respondCode code s = .refused .otherAnswer := (whileReady_of_eq hready).trans (if_neg h)

/-- No row answers a dropped packet. -/
theorem answerCode_of_drops {s : State} (h : s.latch.dropsPacket = true) : s.answerCode = none := if_pos h

theorem answerCode_of_answers {s : State} (h : ¬ s.latch.dropsPacket = true) : s.answerCode = s.latch.answer.1.head? :=
  if_neg h

/-- Settles O41. -/
theorem badPacketsAreDropped : Obligations.BadPacketsAreDropped := by
  intro s hready hbad
  have hdrops := (dropsPacket_iff s).mpr hbad
  refine ⟨?_, fun i hi => ?_⟩
  · rw [exec_pktDispatch hready, dispatch_of_drops hdrops, afterDispatch_eq_latch]
    rfl
  · obtain ⟨code, _, _, hexec⟩ := exec_errorRow hi s
    rw [hexec, respondCode_of_other hready (by rw [answerCode_of_drops hdrops]; nofun)]

/-- Settles O42: where a row runs, the answer begins with its code, and no other row has that code. -/
theorem errorRowsAreDispatchCases : Obligations.ErrorRowsAreDispatchCases := by
  intro s t i hok hi h
  obtain ⟨code, hword, hwf, hexec⟩ := exec_errorRow hi s
  obtain ⟨hready, hcode, rfl⟩ := respondCode_eq_next.mp (hexec ▸ h)
  have hkeep : ¬ s.latch.dropsPacket = true := fun hdrops => by
    rw [answerCode_of_drops hdrops] at hcode
    cases hcode
  refine ⟨exec_pktDispatch hready, ?_, fun j hj hne => ?_⟩
  · rw [answerCode_of_answers hkeep] at hcode
    obtain ⟨data, hdata⟩ := List.head?_eq_some_iff.mp hcode
    refine ⟨data, ?_⟩
    rw [hword, List.singleton_append, ← hdata, dispatch_of_answers hkeep, respond_tx, answer_frame]
    rfl
  · obtain ⟨code', hword', hwf', hexec'⟩ := exec_errorRow hj s
    rw [hexec', respondCode_of_other hready]
    intro hcode'
    obtain rfl : code = code' := Option.some.inj (hcode.symm.trans hcode')
    have hi' := decodeInvertsEncode s.cfg hok i hwf
    rw [hword, ← hword', decodeInvertsEncode s.cfg hok j hwf'] at hi'
    exact hne (Option.some.inj hi')

/-! ### The dispatch of an accepted packet -/

/-- What the dispatch of an accepted packet leaves, and the row of the code it answers with. -/
theorem dispatch_of_accepts {s u : State} {code : Byte} {data : Bytes} (h : s.accepts)
    (ha : s.latch.answer = (code :: data, u)) :
    exec .pktDispatch s = .next { u.respond (code :: data) with ret := .none } ∧
      respondCode code s = .next { u.respond (code :: data) with ret := .none } := by
  have hkeep := not_dropsPacket_of_accepts h
  have hdispatch : s.dispatch = u.respond (code :: data) := by rw [dispatch_of_answers hkeep, ha]
  have hcode : s.answerCode = some code := by rw [answerCode_of_answers hkeep, ha, List.head?_cons]
  rw [← hdispatch]
  exact ⟨exec_pktDispatch h.1, respondCode_eq_next.mpr ⟨h.1, hcode, rfl⟩⟩

/-- Where no callback is called, the packet is answered and nothing else. -/
theorem dispatch_without_call {s : State} {code : Byte} {data : Bytes} (h : s.accepts)
    (ha : s.latch.answer = (code :: data, s.latch)) :
    exec .pktDispatch s = .next (s.answered (code :: data)) ∧
      respondCode code s = .next (s.answered (code :: data)) := by
  have hanswered : s.answered (code :: data) = { s.latch.respond (code :: data) with ret := .none } := by
    rw [State.answered, afterDispatch_eq_latch]
    rfl
  rw [hanswered]
  exact dispatch_of_accepts h ha

/-! ### What each type is answered with -/

theorem answer_of_identify {s : State} (h : packetKind s.cfg s.rxType = .identify) :
    s.answer = (s.cfg.eSuccess :: identData s.cfg, s) := by simp only [State.answer, h]

theorem answer_of_status {s : State} (h : packetKind s.cfg s.rxType = .status) :
    s.answer = (s.cfg.eSuccess :: s.callGetStatus.1, s.callGetStatus.2) := by simp only [State.answer, h]

theorem answer_of_command {s : State} (h : packetKind s.cfg s.rxType = .command) : s.answer = s.answerCommand := by
  simp only [State.answer, h]

theorem answer_of_ping {s : State} (h : packetKind s.cfg s.rxType = .ping) : s.answer = ([s.cfg.eSuccess], s) := by
  simp only [State.answer, h]

/-- A response and an unknown type are answered alike (rule R179). -/
theorem answer_of_other {s : State} (h : packetKind s.cfg s.rxType = .response ∨ packetKind s.cfg s.rxType = .unknown) :
    s.answer = ([s.cfg.eInvalidPacketType], s) := by
  rcases h with h | h <;> simp only [State.answer, h]

/-- Settles O36. -/
theorem pingIsAnsweredWithSuccess : Obligations.PingIsAnsweredWithSuccess := by
  intro s hok h hty
  obtain ⟨_, _, _, hkind, _⟩ := packetKind_typeCodes hok.1
  exact dispatch_without_call h (answer_of_ping (hty ▸ hkind))

/-- The answer bytes that the environment has placed come first. -/
theorem answerBytes_getElem? {s : State} {n m : Nat} (hn : m < n) (hm : m < s.cbAnswers.length) :
    (s.answerBytes n)[m]? = s.cbAnswers[m]? := by
  simp [State.answerBytes, hn, hm]

/-- Settles O37. -/
theorem identifyAndStatusAreAnswered : Obligations.IdentifyAndStatusAreAnswered := by
  intro s hok h
  obtain ⟨hident, hstatus, _⟩ := packetKind_typeCodes hok.1
  refine ⟨fun hty t ht => ?_, fun hty => ?_⟩
  · have ha : s.latch.answer = (s.cfg.eSuccess :: identData s.cfg, s.latch) := answer_of_identify (hty ▸ hident)
    have hdata : [s.cfg.eSuccess] ++ s.cfg.identVersion ++ [BitVec.ofNat 8 s.cfg.minParams.length] ++ s.cfg.identName =
        s.cfg.eSuccess :: identData s.cfg := by
      simp [identData, Config.numCmds]
    rw [ht, hdata]
    exact dispatch_without_call h ha
  · refine ⟨s.answerBytes s.cfg.statusSize, _, length_answerBytes s _, fun m => answerBytes_getElem?, rfl, ?_⟩
    have ha : s.latch.answer = (s.cfg.eSuccess :: s.answerBytes s.cfg.statusSize, s.latch.callGetStatus.2) :=
      answer_of_status (hty ▸ hstatus)
    rw [State.answered, afterDispatch_eq_latch]
    exact dispatch_of_accepts h ha

/-- Settles O38: past the table there is no handler. -/
theorem commandIndexOutOfRangeIsAnswered : Obligations.CommandIndexOutOfRangeIsAnswered := by
  intro s idx params hok h hty hlen hpayload hidx
  obtain ⟨_, _, hkind, _⟩ := packetKind_typeCodes hok.1
  have ha : s.latch.answer = ([s.cfg.eInvalidFunction], s.latch) :=
    (answer_of_command (hty ▸ hkind)).trans
      (answerCommand_of_no_handler hlen hpayload (List.getElem?_eq_none hidx))
  exact dispatch_without_call h ha

theorem getD_zero_eq_headD {α : Type} (l : List α) (a : α) : l.getD 0 a = l.headD a := by
  cases l <;> rfl

/-- Settles O39: the three outcomes of the checks, the last with the handler's answer. -/
theorem commandIsCheckedAndCalled : Obligations.CommandIsCheckedAndCalled := by
  intro s hok h hty
  obtain ⟨_, _, hkind, _⟩ := packetKind_typeCodes hok.1
  have hcommand : s.latch.answer = s.latch.answerCommand := answer_of_command (hty ▸ hkind)
  refine ⟨fun hlen => ?_, fun idx params m hlen hpayload hm => ⟨fun hlt => ?_, fun hle t ht => ?_⟩⟩
  · exact dispatch_without_call h (hcommand.trans (answerCommand_of_len_zero hlen))
  · exact dispatch_without_call h (hcommand.trans (answerCommand_of_few_params hlen hpayload hm hlt))
  · have hbyte : (s.latch.callCommand idx params).1 = s.nextCbByte := getD_zero_eq_headD _ _
    have hcall : s.latch.answer = ([s.nextCbByte], (s.latch.callCommand idx params).2) := by
      rw [hcommand, answerCommand_of_call (s := s.latch) hlen hpayload hm hle, hbyte]
    have hstate : t = { (s.latch.callCommand idx params).2.respond [s.nextCbByte] with ret := .none } := by
      rw [ht, State.answered, afterDispatch_eq_latch, ← hbyte]
      rfl
    obtain ⟨hdispatch, hrow⟩ := dispatch_of_accepts h hcall
    rw [← hstate] at hdispatch hrow
    have row {code : Byte} (he : s.nextCbByte = code) : respondCode code s = .next t := he ▸ hrow
    exact ⟨hdispatch, row, row, row⟩

/-- Settles O40: a type byte of no request is that of a response or of no row. -/
theorem unknownTypeIsAnswered : Obligations.UnknownTypeIsAnswered := by
  intro s hok h h1 h2 h3 h4
  obtain ⟨_, _, _, _, hresponse⟩ := packetKind_typeCodes hok.1
  have hkind : packetKind s.cfg s.rxType = .response ∨ packetKind s.cfg s.rxType = .unknown := by
    by_cases h5 : s.rxType = s.cfg.tResponse
    · exact .inl (h5 ▸ hresponse)
    · exact .inr (packetKind_of_not_mem (by simp [Config.typeCodes, h1, h2, h3, h4, h5]))
  exact dispatch_without_call h (answer_of_other hkind)

/-- Settles O60. -/
theorem pinAndChecksumStatusAreRead : Obligations.PinAndChecksumStatusAreRead := fun _ =>
  ⟨fun _ _ h => withLight_some h, whileReading_of_ne⟩

end Sys2Proof.Machine
end

section
/-! The bus: every received message is routed once (rules R202 to R205), the control send (rule R206), and the ids of the
channels (rules R88, R201, R207 and R209). -/

namespace Sys2Proof.Machine

open Sys2Proof

/-! ### Ids -/

/-- The channels by their offsets (rules R88 and R200). -/
theorem exists_channelAt {ch : Nat} (h : ch ≤ 3) : ∃ channel, channelAt ch = some channel ∧ channelOffset channel = ch := by
  match ch, h with
  | 0, _ => exact ⟨.comm, rfl, rfl⟩
  | 1, _ => exact ⟨.control, rfl, rfl⟩
  | 2, _ => exact ⟨.status, rfl, rfl⟩
  | 3, _ => exact ⟨.misc, rfl, rfl⟩

theorem channelId_comm (base : BitVec 32) : channelId base .comm = base := BitVec.add_zero base

/-- An id in the range of no device is of none (rule R203). -/
theorem matchId_eq_none {c : Config} {id : BitVec 32}
    (h : ∀ base ∈ c.baseIds, ¬ (base.toNat ≤ id.toNat ∧ id.toNat ≤ base.toNat + 3)) : matchId c id = none := by
  have search (bases : List (BitVec 32)) (hb : ∀ base ∈ bases, ¬ (base.toNat ≤ id.toNat ∧ id.toNat ≤ base.toNat + 3))
      (start : Nat) : matchFrom id bases start = none := by
    induction bases generalizing start with
    | nil => rfl
    | cons base bases ih =>
      obtain ⟨hfirst, hrest⟩ := List.forall_mem_cons.mp hb
      rw [matchFrom, if_neg hfirst, ih hrest]
  exact search c.baseIds h 0

/-- `BUS.CHANID` on a device and a channel of the block (rule R209). -/
theorem exec_busChanid {s : State} {k ch : Nat} {base : BitVec 32} {channel : Channel} (hch : channelAt ch = some channel)
    (hk : s.cfg.baseIds[k]? = some base) :
    exec (.busChanid k ch) s = .next { s with ret := .u32 (channelId base channel) } := by
  change execBusChanid k ch s = _
  simp only [execBusChanid, hch, hk, returns_eq]

theorem exists_base {c : Config} {k : Nat} (h : k < c.numDevices) : ∃ base, c.baseIds[k]? = some base :=
  ⟨_, List.getElem?_eq_getElem h⟩

/-- Settles O50: the sum does not overflow, and the device table finds device and channel of an id again. -/
theorem channelIdsAreSumsAndDistinct : Obligations.ChannelIdsAreSumsAndDistinct := by
  intro s k ch hok hk hch
  obtain ⟨base, hbase⟩ := exists_base hk
  obtain ⟨channel, hat, hoffset⟩ := exists_channelAt hch
  have hroom : base.toNat ≤ 0xFFFFFFFC := by
    obtain ⟨_, _, _, _, _, _, _, hrooms, _⟩ := hok
    exact hrooms _ (List.mem_map_of_mem (List.mem_of_getElem? hbase))
  refine ⟨base, channelId base channel, hbase, hoffset ▸ channelId_toNat base channel hroom, exec_busChanid hat hbase,
    fun k' ch' hk' hch' h' => ?_⟩
  obtain ⟨base', hbase'⟩ := exists_base hk'
  obtain ⟨channel', hat', hoffset'⟩ := exists_channelAt hch'
  rw [exec_busChanid hat' hbase'] at h'
  have hid : channelId base' channel' = channelId base channel := by simpa using h'
  have hmatch := matchId_channelId hok channel' hbase'
  rw [hid, matchId_channelId hok channel hbase, Option.some.injEq, Prod.mk.injEq] at hmatch
  obtain ⟨rfl, rfl⟩ := hmatch
  exact ⟨rfl, hoffset'.symm.trans hoffset⟩

/-! ### Received messages -/

/-- Only five bytes on a status channel carry an update (rule R204). -/
theorem statusUpdate_eq_none {k : Nat} {ch : Channel} {payload : Bytes} (h : ch ≠ .status ∨ payload.length ≠ 5) :
    statusUpdate (some (k, ch)) payload = none := by
  cases ch
  case status => rw [statusUpdate_status, statusRecord_of_length_ne (h.resolve_left (not_not_intro rfl)), Option.map_none]
  all_goals rfl

/-- A message on a device's channel, by its id or by the row of the channel. -/
theorem exec_channel {s : State} {i : Instr} {k : Nat} {base : BitVec 32} {ch : Channel} {payload : Bytes}
    (hk : s.cfg.baseIds[k]? = some base) (h : payload.length ≤ s.cfg.busMaxPayload)
    (hi : i = .busRecv (channelId base ch) payload ∨ i = channelInstr ch k payload) :
    exec i s = .next { s.receive (channelId base ch) payload with ret := .none } := by
  rcases hi with rfl | rfl
  · exact exec_busRecv _ h
  · have hrow : exec (channelInstr ch k payload) s = receiveOn ch k payload s := by cases ch <;> rfl
    rw [hrow]
    simp only [receiveOn, hk]
    exact exec_busRecv _ h

/-- A message on a device's channel that carries no update is routed and nothing else. -/
theorem exec_channel_routed {s : State} {i : Instr} {k : Nat} {base : BitVec 32} {ch : Channel} {payload : Bytes}
    (hok : s.cfg.ok) (hk : s.cfg.baseIds[k]? = some base) (h : payload.length ≤ s.cfg.busMaxPayload)
    (hi : i = .busRecv (channelId base ch) payload ∨ i = channelInstr ch k payload)
    (hno : ch ≠ .status ∨ payload.length ≠ 5) :
    exec i s = .next { s with
      route := s.route ++ [⟨channelId base ch, payload, some (k, ch), false⟩], ret := .none } := by
  have hmatch := matchId_channelId hok ch hk
  rw [exec_channel hk h hi, receive_of_no_update (by rw [hmatch, statusUpdate_eq_none hno]), hmatch]

/-- Settles O46. -/
theorem everyMessageIsRoutedOnce : Obligations.EveryMessageIsRoutedOnce := by
  intro s payload hok h
  refine ⟨fun k base hk => ⟨fun i id ch hi => ?_, fun i b0 b1 b2 b3 b4 hp hi => ?_⟩, fun id hid => ?_⟩
  · rcases hi with ⟨hi, rfl, rfl⟩ | ⟨hi, rfl, rfl⟩ | ⟨hi, rfl, rfl, hlen⟩ | ⟨hi, rfl, rfl⟩
    · rw [← channelId_comm id] at hi ⊢
      exact exec_channel_routed hok hk h hi (.inl nofun)
    · exact exec_channel_routed (ch := .control) hok hk h hi (.inl nofun)
    · exact exec_channel_routed (ch := .status) hok hk h hi (.inr hlen)
    · exact exec_channel_routed (ch := .misc) hok hk h hi (.inl nofun)
  · subst hp
    refine (exec_channel (ch := .status) hk h hi).trans ?_
    change Host.Outcome.next { s.receive (base + 2) _ with ret := .none } = _
    rw [receive_status_record hok hk]
  · have hmatch := matchId_eq_none hid
    rw [exec_busRecv id h, receive_of_no_update (by rw [hmatch]; rfl), hmatch]

/-! ### The control send and indices out of range -/

/-- `BUS.SEND_CONTROL` on a device of the block (rule R206). -/
theorem exec_busSendControl {s : State} {k : Nat} {base : BitVec 32} (value : Byte) (hk : s.cfg.baseIds[k]? = some base) :
    exec (.busSendControl k value) s = .next { s with
      busTx := s.busTx ++ [⟨base + 1, [value]⟩]
      busAnswers := s.busAnswers.tail
      drawCount := s.drawCount + 1
      ret := .busAnswer s.nextBusAnswer } := by
  change execBusSendControl k value s = _
  simp only [execBusSendControl, hk, returns_eq]
  rfl

/-- Settles O47. -/
theorem sendControlTransmitsOneByte : Obligations.SendControlTransmitsOneByte := by
  intro s k value base hk
  refine ⟨s.nextBusAnswer, fun a rest ha => ?_, exec_busSendControl value hk⟩
  rw [State.nextBusAnswer, ha, List.headD_cons]

/-- Settles O49. -/
theorem deviceIndexOutOfRangeIsReturned : Obligations.DeviceIndexOutOfRangeIsReturned := by
  intro s k ch value hdev hk hch
  have hnone : s.cfg.baseIds[k]? = none := List.getElem?_eq_none hk
  obtain ⟨channel, hat, _⟩ := exists_channelAt hch
  refine ⟨?_, exec_devGet_outOfRange (hdev ▸ hk), ?_⟩
  · change execBusSendControl k value s = _
    simp only [execBusSendControl, hnone, State.returnErr, returns_eq]
  · change execBusChanid k ch s = _
    simp only [execBusChanid, hat, hnone, State.returnErr, returns_eq]

end Sys2Proof.Machine
end

section
/-! Buttons: the tick against the transition table (rules R221 and R223), the predicates (rules R226 to R232), and the events
of a gesture (rule R234). -/

namespace Sys2Proof.Machine

open Sys2Proof

/-! ### The transition table -/

/-- The tick's choice is the table of rule R221. -/
theorem nextGesture_eq_some_iff (c : Config) (st : GestureState) (p : Bool) (e : Int) (st' : GestureState) :
    nextGesture c st p e = some st' ↔ gestureRow c st p e st' := by
  have threshold (limit : Nat) (next : GestureState) :
      (if (limit : Int) ≤ e then some next else none) = some st' ↔ e ≥ limit ∧ st' = next := by
    by_cases h : (limit : Int) ≤ e
    · simp [h, eq_comm]
    · simp [h]
  cases st <;> cases p <;> simp [nextGesture, gestureRow, threshold, eq_comm]

theorem nextGesture_eq_none_iff (c : Config) (st : GestureState) (p : Bool) (e : Int) :
    nextGesture c st p e = none ↔ ∀ st', ¬ gestureRow c st p e st' := by
  simp only [Option.eq_none_iff_forall_ne_some, ← nextGesture_eq_some_iff, Ne]

/-! ### One tick -/

/-- A tick that the table lists makes its transition. -/
theorem Button.tick_of_row {c : Config} {b : Button} {p : Bool} {now : BitVec 64} {st' : GestureState}
    (h : gestureRow c b.state p (elapsed now b.lastTransitionTime) st') : b.tick c p now = ⟨st', now, true⟩ := by
  rw [← nextGesture_eq_some_iff] at h
  simp only [Button.tick, h, freshAfter, Option.isSome_some]

/-- Any other tick clears `fresh` only. -/
theorem Button.tick_of_no_row {c : Config} {b : Button} {p : Bool} {now : BitVec 64}
    (h : ∀ st', ¬ gestureRow c b.state p (elapsed now b.lastTransitionTime) st') :
    b.tick c p now = { b with fresh := false } := by
  rw [← nextGesture_eq_none_iff] at h
  simp only [Button.tick, h, freshAfter, Option.isSome_none]

/-- Where a tick leaves `fresh` set, it made a transition of the table. -/
theorem Button.row_of_fresh {c : Config} {b : Button} {p : Bool} {now : BitVec 64} (h : (b.tick c p now).fresh = true) :
    gestureRow c b.state p (elapsed now b.lastTransitionTime) (b.tick c p now).state := by
  by_cases hrow : ∃ st', gestureRow c b.state p (elapsed now b.lastTransitionTime) st'
  · obtain ⟨st', hst'⟩ := hrow
    rw [tick_of_row hst']
    exact hst'
  · rw [tick_of_no_row (not_exists.mp hrow)] at h
    cases h

theorem exec_btnTick {s : State} {n : Nat} {b : Button} (p : Bool) (now : BitVec 64) (h : s.btn[n]? = some b) :
    exec (.btnTick n p now) s = .next { s with btn := s.btn.set n (b.tick s.cfg p now), ret := .none } :=
  withButton_some h

/-- Settles O51. -/
theorem buttonTickFollowsTable : Obligations.ButtonTickFollowsTable := by
  intro s n b p now h
  refine ⟨fun st' hrow => ?_, fun hrow => ?_⟩
  · rw [exec_btnTick p now h, Button.tick_of_row hrow]
  · rw [exec_btnTick p now h, Button.tick_of_no_row hrow]

/-! ### The predicates -/

theorem Button.isClick_iff (b : Button) :
    b.isClick = true ↔ b.fresh = true ∧ (b.state = .pressed ∨ b.state = .doubleClick) := by
  simp [Button.isClick]

theorem Button.isSingleClick_iff (b : Button) : b.isSingleClick = true ↔ b.fresh = true ∧ b.state = .singleClick := by
  simp [Button.isSingleClick]

theorem Button.isDoubleClick_iff (b : Button) : b.isDoubleClick = true ↔ b.fresh = true ∧ b.state = .doubleClick := by
  simp [Button.isDoubleClick]

theorem Button.isLongClick_iff (b : Button) : b.isLongClick = true ↔ b.fresh = true ∧ b.state = .longClick := by
  simp [Button.isLongClick]

theorem Button.isReleased_iff (c : Config) (b : Button) :
    b.isReleased c = true ↔
      b.fresh = true ∧ (b.state = .clickUp ∨ (c.releasedOnOtherUp = true ∧ b.state = .otherUp)) := by
  simp [Button.isReleased]

/-- Settles O53. -/
theorem predicatesReadFreshEntry : Obligations.PredicatesReadFreshEntry := by
  intro s n b h
  have same {q : Bool} {P : Prop} [Decidable P] (hq : q = true ↔ P) : q = decide P :=
    Bool.eq_iff_iff.mpr (hq.trans decide_eq_true_iff.symm)
  rw [← same b.isClick_iff, ← same b.isSingleClick_iff, ← same b.isDoubleClick_iff, ← same b.isLongClick_iff,
    ← same (b.isReleased_iff s.cfg)]
  exact ⟨withButton_some h, withButton_some h, withButton_some h, withButton_some h, withButton_some h, withButton_some h⟩

/-! ### Events and their edges -/

/-- The sample and the source state by which the table enters a state that some predicate reads (rule R234). -/
def eventEdge : GestureState → Bool → GestureState → Prop
  | .pressed, p, st => p = true ∧ st = .debounce
  | .doubleClick, p, st => p = true ∧ st = .doubleClickDebounce
  | .singleClick, p, st => p = false ∧ st = .clickIdle
  | .longClick, p, st => p = true ∧ st = .pressed
  | .clickUp, p, st => p = false ∧ st = .pressed
  | .otherUp, p, st => p = false ∧ (st = .doubleClick ∨ st = .longClick)
  | _, _, _ => True

/-- The table has no other row into those states. -/
theorem eventEdge_of_gestureRow {c : Config} {st st' : GestureState} {p : Bool} {e : Int} (h : gestureRow c st p e st') :
    eventEdge st' p st := by
  cases st'
  case idle | debounce | clickIdle | doubleClickDebounce => trivial
  all_goals
    simp only [gestureRow, reduceCtorEq, and_false, false_or, or_false] at h
    simp only [eventEdge]
    tauto

/-- Settles O54: an event is fresh, so its tick made a transition, and the table has few into the state of each event. -/
theorem gestureEventsNeedTheirEdge : Obligations.GestureEventsNeedTheirEdge := by
  intro s t n b b' p now hb hexec hb'
  have hlt : n < s.btn.length := (List.getElem?_eq_some_iff.mp hb).1
  obtain rfl : b' = b.tick s.cfg p now := by
    rw [exec_btnTick p now hb, Host.Outcome.next.injEq] at hexec
    rw [← hexec, List.getElem?_set_self hlt] at hb'
    exact (Option.some.inj hb').symm
  have edge {st' : GestureState} (hfresh : (b.tick s.cfg p now).fresh = true) (hst : (b.tick s.cfg p now).state = st') :
      eventEdge st' p b.state := hst ▸ eventEdge_of_gestureRow (Button.row_of_fresh hfresh)
  refine ⟨fun h => ?_, fun h => ?_, fun h => ?_, fun h => ?_, fun h => ?_⟩
  · obtain ⟨hfresh, hst | hst⟩ := (Button.isClick_iff _).mp h
    · exact (edge hfresh hst).imp_right .inl
    · exact (edge hfresh hst).imp_right .inr
  · obtain ⟨hfresh, hst⟩ := (Button.isSingleClick_iff _).mp h
    exact edge hfresh hst
  · obtain ⟨hfresh, hst⟩ := (Button.isDoubleClick_iff _).mp h
    exact edge hfresh hst
  · obtain ⟨hfresh, hst⟩ := (Button.isLongClick_iff _).mp h
    exact edge hfresh hst
  · obtain ⟨hfresh, hst | ⟨_, hst⟩⟩ := (Button.isReleased_iff _ _).mp h
    · exact (edge hfresh hst).imp_right .inl
    · exact (edge hfresh hst).imp_right .inr

/-! ### A glitch -/

/-- Operations one after the other. -/
theorem runOps_append {as bs : List Instr} {s t : State} (h : runOps as s = .next t) :
    runOps (as ++ bs) s = runOps bs t := by
  induction as generalizing s with
  | nil => cases h; rfl
  | cons i as ih =>
    rw [List.cons_append, runOps]
    rw [runOps] at h
    cases hexec : exec i s with
    | next u =>
      rw [hexec] at h
      exact ih h
    | fault r => cases r
    | refused r =>
      rw [hexec] at h
      cases h

/-- One more tick leaves the table's size and the configuration, and its button as the tick makes it. -/
theorem runOps_btnTick {s : State} {n : Nat} {b : Button} (p : Bool) (now : BitVec 64) (h : s.btn[n]? = some b) :
    ∃ t, runOps [.btnTick n p now] s = .next t ∧ t.btn[n]? = some (b.tick s.cfg p now) ∧ t.cfg = s.cfg := by
  refine ⟨{ s with btn := s.btn.set n (b.tick s.cfg p now), ret := .none }, ?_, ?_, rfl⟩
  · simp only [runOps, exec_btnTick p now h]
  · exact List.getElem?_set_self (List.getElem?_eq_some_iff.mp h).1

/-- Pressed samples within the debounce time leave the button in `Debounce`, with the time it was entered. -/
theorem runOps_held {s : State} {n : Nat} {first : BitVec 64} {fresh : Bool} (held : List (BitVec 64))
    (h : s.btn[n]? = some ⟨.debounce, first, fresh⟩) (hheld : ∀ now ∈ held, elapsed now first < s.cfg.debounceUs) :
    ∃ t fresh', runOps (held.map (.btnTick n true)) s = .next t ∧ t.btn[n]? = some ⟨.debounce, first, fresh'⟩ ∧
      t.cfg = s.cfg := by
  induction held generalizing s fresh with
  | nil => exact ⟨s, fresh, rfl, h, rfl⟩
  | cons now held ih =>
    obtain ⟨hnow, hrest⟩ := List.forall_mem_cons.mp hheld
    have hno (st') : ¬ gestureRow s.cfg .debounce true (elapsed now first) st' := by
      simp [gestureRow]
      omega
    obtain ⟨t, hrun, hbtn, hcfg⟩ := runOps_btnTick true now h
    rw [Button.tick_of_no_row hno] at hbtn
    obtain ⟨u, fresh', hrun', hbtn', hcfg'⟩ := ih hbtn (by rwa [hcfg])
    exact ⟨u, fresh', (runOps_append (as := [_]) hrun).trans hrun', hbtn', hcfg'.trans hcfg⟩

/-- Settles O55: into `Debounce`, there through the held samples, and back at the release. -/
theorem glitchRaisesNoEvent : Obligations.GlitchRaisesNoEvent := by
  intro s n b first last held hb hidle hheld
  have enter : b.tick s.cfg true first = ⟨.debounce, first, true⟩ :=
    Button.tick_of_row (.inl ⟨hidle, rfl, rfl⟩)
  obtain ⟨t, hrun, hbtn, hcfg⟩ := runOps_btnTick true first hb
  rw [enter] at hbtn
  obtain ⟨u, fresh, hrun', hbtn', hcfg'⟩ := runOps_held held hbtn (by rwa [hcfg])
  have hpressed : runOps ((first :: held).map (.btnTick n true)) s = .next u :=
    (runOps_append (as := [_]) hrun).trans hrun'
  refine ⟨⟨u, hpressed, fresh, hbtn'⟩, ?_⟩
  obtain ⟨v, hrun'', hbtn'', _⟩ := runOps_btnTick false last hbtn'
  refine ⟨v, (runOps_append hpressed).trans hrun'', ?_⟩
  rw [hbtn'', Button.tick_of_row (.inr (.inl ⟨rfl, rfl, rfl⟩))]

end Sys2Proof.Machine
end

section
/-! The status light: the mutators (rules R257 to R263), one update (rules R251 to R255), and a counted blink to its end. -/

namespace Sys2Proof.Machine

open Sys2Proof

/-! ### The mutators -/

theorem Light.toggled_of_on {l : Light} (h : l.state = .on) : l.toggled = l.intend .off := by
  simp only [Light.toggled, h]

theorem Light.toggled_of_ne_on {l : Light} (h : l.state ≠ .on) : l.toggled = l.intend .on := by
  unfold Light.toggled
  split
  case h_2 hon => exact absurd hon h
  all_goals rfl

theorem exec_lightToggle {s : State} {j : Nat} {l : Light} (h : s.light[j]? = some l) :
    exec (.lightToggle j) s = .next { s with light := s.light.set j l.toggled, ret := .none } := withLight_some h

theorem exec_lightBlinkToggle {s : State} {j : Nat} {l : Light} {period : BitVec 64} (h : s.light[j]? = some l)
    (hp : 0 ≤ period.toInt) :
    exec (.lightBlinkToggle j period) s =
      .next { s with light := s.light.set j (l.blinkToggled period), ret := .none } :=
  (withLight_some h).trans (withPeriod_of_nonneg hp)

theorem exec_lightBlinkCount {s : State} {j : Nat} {l : Light} {period : BitVec 64} (n : BitVec 32)
    (h : s.light[j]? = some l) (hp : 0 ≤ period.toInt) :
    exec (.lightBlinkCount j period n) s =
      .next { s with light := s.light.set j (l.startCount period n), ret := .none } :=
  (withLight_some h).trans (withPeriod_of_nonneg hp)

/-- Settles O57. -/
theorem lightMutatorsRecordIntent : Obligations.LightMutatorsRecordIntent := by
  intro s j l h
  refine ⟨fun hon => ?_, fun hon => ?_, fun period n hp => ⟨?_, fun hb => ?_, fun hb => ?_, exec_lightBlinkCount n h hp⟩⟩
  · rw [exec_lightToggle h, Light.toggled_of_on hon]
    rfl
  · rw [exec_lightToggle h, Light.toggled_of_ne_on hon]
    rfl
  · exact (withLight_some h).trans (withPeriod_of_nonneg hp)
  · rw [exec_lightBlinkToggle h hp, Light.blinkToggled, if_pos hb]
    rfl
  · rw [exec_lightBlinkToggle h hp, Light.blinkToggled, if_neg hb]
    rfl

/-! ### One update -/

section
variable {l : Light} {now : BitVec 64}

theorem Light.update_of_changed (h : l.stateChanged = true) : l.update now = l.enter now := if_pos h

theorem Light.enter_steady (h : l.state = .on ∨ l.state = .off) :
    l.enter now = { l with stateChanged := false, out := decide (l.state = .on) } := by
  rcases h with h | h <;> simp only [Light.enter, h, reduceCtorEq, decide_true, decide_false]

theorem Light.enter_blinking (h : l.state = .blink ∨ l.state = .blinkCount) :
    l.enter now = { l with stateChanged := false, blinkValue := false, out := false, lastTime := now } := by
  rcases h with h | h <;> simp only [Light.enter, h]

theorem Light.update_steady (hc : l.stateChanged = false) (h : l.state = .on ∨ l.state = .off) : l.update now = l := by
  rcases h with h | h <;> simp only [Light.update, hc, h, Bool.false_eq_true, if_false]

theorem Light.update_blink (hc : l.stateChanged = false) (h : l.state = .blink) :
    l.update now = if l.phaseOver now then l.invert now else l := by
  simp only [Light.update, hc, h, Bool.false_eq_true, if_false]

theorem Light.update_blinkCount (hc : l.stateChanged = false) (h : l.state = .blinkCount) :
    l.update now = l.countedBlink now := by
  simp only [Light.update, hc, h, Bool.false_eq_true, if_false]

theorem Light.phaseOver_of_gt (h : elapsed now l.lastTime > l.blinkPeriod.toInt) : l.phaseOver now = true :=
  decide_eq_true h

theorem Light.phaseOver_of_le (h : elapsed now l.lastTime ≤ l.blinkPeriod.toInt) : l.phaseOver now = false :=
  decide_eq_false (Int.not_lt.mpr h)

/-- The count has reached its target: the blink has stopped (rule R255). -/
theorem Light.countedBlink_of_done (h : l.blinkTargetCount.toNat ≤ l.blinkToggleCount.toNat) :
    l.countedBlink now = { l with blinkValue := false, out := false } := if_pos h

/-- Within the period the phase is held. -/
theorem Light.countedBlink_of_held (h : l.blinkToggleCount.toNat < l.blinkTargetCount.toNat)
    (hp : l.phaseOver now = false) : l.countedBlink now = l := by
  rw [Light.countedBlink, if_neg (Nat.not_le.mpr h), hp]
  rfl

/-- After the period the phase is inverted, and the edge from on to off is counted (rule R254). -/
theorem Light.countedBlink_of_over (h : l.blinkToggleCount.toNat < l.blinkTargetCount.toNat)
    (hp : l.phaseOver now = true) :
    l.countedBlink now = { l.invert now with
      blinkToggleCount := if l.blinkValue then l.blinkToggleCount + 1 else l.blinkToggleCount } := by
  rw [Light.countedBlink, if_neg (Nat.not_le.mpr h), if_pos hp]

end

/-- Settles O58, case by case. -/
theorem lightUpdateFollowsState : Obligations.LightUpdateFollowsState := by
  intro s j l l' now h hcase
  suffices hupdate : l.update now = l' by rw [exec_lightUpdate now h, hupdate]
  rcases hcase with ⟨hc, hst, rfl⟩ | ⟨hc, hst, rfl⟩ | ⟨hc, hst, rfl⟩ | ⟨hc, hst, he, rfl⟩ | ⟨hc, hst, he, rfl⟩ |
    ⟨hc, hst, hlt, he, rfl⟩ | ⟨hc, hst, hlt, he, hv, rfl⟩ | ⟨hc, hst, hlt, he, hv, rfl⟩ | ⟨hc, hst, hle, rfl⟩
  · rw [Light.update_of_changed hc, Light.enter_steady hst]
  · rw [Light.update_of_changed hc, Light.enter_blinking hst]
  · exact Light.update_steady hc hst
  · rw [Light.update_blink hc hst, Light.phaseOver_of_le he]
    rfl
  · rw [Light.update_blink hc hst, Light.phaseOver_of_gt he]
    rfl
  · rw [Light.update_blinkCount hc hst, Light.countedBlink_of_held hlt (Light.phaseOver_of_le he)]
  · rw [Light.update_blinkCount hc hst, Light.countedBlink_of_over hlt (Light.phaseOver_of_gt he), hv]
    simp only [Light.invert, hv]
    rfl
  · rw [Light.update_blinkCount hc hst, Light.countedBlink_of_over hlt (Light.phaseOver_of_gt he), hv]
    simp only [Light.invert, hv]
    rfl
  · rw [Light.update_blinkCount hc hst, Light.countedBlink_of_done hle]

/-! ### A counted blink to its end -/

/-- A counted blink, in its off phase since time `t`, with `k` of `n` cycles done. -/
def countedLight (period : BitVec 64) (n k : BitVec 32) (t : BitVec 64) : Light :=
  ⟨.blinkCount, false, t, period, n, k, false, false⟩

/-- The entry update of a counted blink. -/
theorem update_startCount (l : Light) (period : BitVec 64) (n : BitVec 32) (t : BitVec 64) :
    (l.startCount period n).update t = countedLight period n 0 t := rfl

/-- Two updates, each more than a period after the one before, are one more cycle. -/
theorem update_update_countedLight {period : BitVec 64} {n k : BitVec 32} {t a b : BitVec 64} (hk : k.toNat < n.toNat)
    (ha : elapsed a t > period.toInt) (hb : elapsed b a > period.toInt) :
    ((countedLight period n k t).update a).update b = countedLight period n (k + 1) b := by
  have rise : (countedLight period n k t).update a = ⟨.blinkCount, false, a, period, n, k, true, true⟩ :=
    (Light.update_blinkCount rfl rfl).trans (Light.countedBlink_of_over hk (Light.phaseOver_of_gt ha))
  rw [rise]
  exact (Light.update_blinkCount rfl rfl).trans (Light.countedBlink_of_over hk (Light.phaseOver_of_gt hb))

/-- The cycles still to come, each of two updates: an induction over their number. -/
theorem foldl_update_countedLight {period : BitVec 64} {n : BitVec 32} (m : Nat) (k : BitVec 32) (t : BitVec 64)
    (nows : List (BitVec 64)) (hm : k.toNat + m = n.toNat) (hlen : nows.length = 2 * m)
    (hchain : (t :: nows).IsChain fun a b => elapsed b a > period.toInt) :
    ∃ t', nows.foldl Light.update (countedLight period n k t) = countedLight period n n t' := by
  induction m generalizing k t nows with
  | zero =>
    obtain rfl : nows = [] := List.eq_nil_of_length_eq_zero hlen
    obtain rfl : k = n := BitVec.eq_of_toNat_eq hm
    exact ⟨t, rfl⟩
  | succ m ih =>
    match nows, hlen with
    | a :: b :: rest, hlen =>
      obtain ⟨ha, hab⟩ := List.isChain_cons_cons.mp hchain
      obtain ⟨hb, hrest⟩ := List.isChain_cons_cons.mp hab
      rw [List.foldl_cons, List.foldl_cons, update_update_countedLight (by omega) ha hb]
      simp only [List.length_cons] at hlen
      refine ih (k + 1) b rest ?_ (by omega) hrest
      have : (k + 1).toNat = k.toNat + 1 := by bv_omega
      omega

/-- At its target the blink stays off, whatever the times of the updates (rule R255). -/
theorem foldl_update_countedLight_done (period : BitVec 64) (n : BitVec 32) (t : BitVec 64) (later : List (BitVec 64)) :
    later.foldl Light.update (countedLight period n n t) = countedLight period n n t := by
  induction later with
  | nil => rfl
  | cons now later ih =>
    have hnow : (countedLight period n n t).update now = countedLight period n n t :=
      (Light.update_blinkCount rfl rfl).trans (Light.countedBlink_of_done (Nat.le_refl _))
    rw [List.foldl_cons, hnow, ih]

/-- A run of updates of one light makes of it what the updates make of it one after the other. -/
theorem runOps_lightUpdates {s : State} {j : Nat} {l : Light} (times : List (BitVec 64)) (h : s.light[j]? = some l) :
    ∃ u, runOps (times.map (.lightUpdate j)) s = .next u ∧ u.light[j]? = some (times.foldl Light.update l) := by
  induction times generalizing s l with
  | nil => exact ⟨s, rfl, h⟩
  | cons now times ih =>
    have hj := (List.getElem?_eq_some_iff.mp h).1
    obtain ⟨u, hrun, hlight⟩ := ih (s := { s with light := s.light.set j (l.update now), ret := .none })
      (List.getElem?_set_self hj)
    refine ⟨u, ?_, hlight⟩
    rw [List.map_cons, runOps, exec_lightUpdate now h]
    exact hrun

/-- Settles O59: the entry update, `n` cycles of two updates each, and the rest at the target. -/
theorem countedBlinkEndsOff : Obligations.CountedBlinkEndsOff := by
  intro s j period t0 n nows later hj hp hlen hchain
  obtain ⟨t', hcycles⟩ := foldl_update_countedLight n.toNat 0 t0 nows (Nat.zero_add _) hlen hchain
  have hl : s.light[j]? = some s.light[j] := List.getElem?_eq_getElem hj
  obtain ⟨u, hrun, hlight⟩ := runOps_lightUpdates ((t0 :: nows) ++ later)
    (s := { s with light := s.light.set j (s.light[j].startCount period n), ret := .none }) (List.getElem?_set_self hj)
  rw [List.foldl_append, List.foldl_cons, update_startCount, hcycles, foldl_update_countedLight_done] at hlight
  refine ⟨u, _, ?_, hlight, rfl, rfl, rfl⟩
  rw [runOps, exec_lightBlinkCount n hl hp]
  exact hrun

end Sys2Proof.Machine
end

section
/-! Timestamps: the signed difference (rules R224 and R265) and the premise of rule R302 along operations and steps. -/

namespace Sys2Proof.Machine

open Sys2Proof

/-! ### The signed difference -/

/-- A difference over the range of `i64` wraps down by `2^64` (log entry 6). -/
theorem elapsed_of_over {now last : BitVec 64} (h : 2 ^ 63 ≤ now.toInt - last.toInt) :
    elapsed now last = now.toInt - last.toInt - 2 ^ 64 := by
  have := now.toInt_lt
  have := last.le_toInt
  calc elapsed now last = (now.toInt - last.toInt - (2 ^ 64 : Nat)).bmod (2 ^ 64) := by
        rw [elapsed_eq_bmod, Int.sub_bmod_right]
    _ = now.toInt - last.toInt - 2 ^ 64 := Int.bmod_eq_of_le (by omega) (by omega)

/-- A difference under it wraps up. -/
theorem elapsed_of_under {now last : BitVec 64} (h : now.toInt - last.toInt < -(2 ^ 63)) :
    elapsed now last = now.toInt - last.toInt + 2 ^ 64 := by
  have := now.le_toInt
  have := last.toInt_lt
  calc elapsed now last = (now.toInt - last.toInt + (2 ^ 64 : Nat)).bmod (2 ^ 64) := by
        rw [elapsed_eq_bmod, Int.add_bmod_right]
    _ = now.toInt - last.toInt + 2 ^ 64 := Int.bmod_eq_of_le (by omega) (by omega)

/-! ### A negative elapsed time -/

/-- No threshold is met, so with a pressed sample only the rows without one remain (decision D28). -/
theorem gestureRow_pressed_of_neg (c : Config) (st st' : GestureState) {e : Int} (h : e < 0) :
    gestureRow c st true e st' ↔
      st = .idle ∧ st' = .debounce ∨ st = .clickUp ∧ st' = .clickIdle ∨ st = .clickIdle ∧ st' = .doubleClickDebounce ∨
        st = .singleClick ∧ st' = .idle ∨ st = .otherUp ∧ st' = .idle := by
  have hno (limit : Nat) : ¬ e ≥ limit := by omega
  simp only [gestureRow, hno, reduceCtorEq, true_and, false_and, and_false, false_or]

/-- And with a released sample likewise. -/
theorem gestureRow_released_of_neg (c : Config) (st st' : GestureState) {e : Int} (h : e < 0) :
    gestureRow c st false e st' ↔
      st = .debounce ∧ st' = .idle ∨ st = .pressed ∧ st' = .clickUp ∨ st = .clickUp ∧ st' = .clickIdle ∨
        st = .doubleClickDebounce ∧ st' = .clickIdle ∨ st = .doubleClick ∧ st' = .otherUp ∨
        st = .longClick ∧ st' = .otherUp ∨ st = .singleClick ∧ st' = .idle ∨ st = .otherUp ∧ st' = .idle := by
  have hno (limit : Nat) : ¬ e ≥ limit := by omega
  simp only [gestureRow, hno, reduceCtorEq, true_and, false_and, and_false, false_or]

/-- A blinking light holds its phase (decision D32). -/
theorem exec_lightUpdate_of_held {s : State} {j : Nat} {l : Light} {now : BitVec 64} (h : s.light[j]? = some l)
    (hc : l.stateChanged = false)
    (hst : l.state = .blink ∨ l.state = .blinkCount ∧ l.blinkToggleCount.toNat < l.blinkTargetCount.toNat)
    (hp : l.phaseOver now = false) : exec (.lightUpdate j now) s = .next { s with ret := .none } := by
  have hupdate : l.update now = l := by
    rcases hst with hst | ⟨hst, hlt⟩
    · rw [Light.update_blink hc hst, hp]
      rfl
    · rw [Light.update_blinkCount hc hst, Light.countedBlink_of_held hlt hp]
  have hset : s.light.set j l = s.light := by
    obtain ⟨hj, rfl⟩ := List.getElem?_eq_some_iff.mp h
    exact List.set_getElem_self hj
  rw [exec_lightUpdate now h, hupdate, hset]

/-! ### The premise along operations -/

/-- After reset every stored time is zero (rule R303). -/
theorem resetWith_timestampPremise (c : Config) {ops : List Instr} (h : timestampPremise ops) :
    (State.resetWith c).timestampPremise ops := by
  refine ⟨fun n b hb => ?_, fun j l hl => ?_⟩
  · rw [List.eq_of_mem_replicate (List.mem_of_getElem? hb)]
    exact timesPremise_zero_cons (h.1 n)
  · rw [List.eq_of_mem_replicate (List.mem_of_getElem? hl)]
    exact timesPremise_zero_cons (h.2 j)

theorem Button.tick_lastTransitionTime (c : Config) (b : Button) (p : Bool) (now : BitVec 64) :
    (b.tick c p now).lastTransitionTime = b.lastTransitionTime ∨ (b.tick c p now).lastTransitionTime = now := by
  unfold Button.tick
  dsimp only
  split
  · exact .inr rfl
  · exact .inl rfl

theorem Light.countedBlink_lastTime (l : Light) (now : BitVec 64) :
    (l.countedBlink now).lastTime = l.lastTime ∨ (l.countedBlink now).lastTime = now := by
  unfold Light.countedBlink
  split
  · exact .inl rfl
  · split
    · exact .inr rfl
    · exact .inl rfl

theorem Light.update_lastTime (l : Light) (now : BitVec 64) :
    (l.update now).lastTime = l.lastTime ∨ (l.update now).lastTime = now := by
  unfold Light.update
  split
  · unfold Light.enter
    split
    · exact .inl rfl
    · exact .inl rfl
    · exact .inr rfl
    · exact .inr rfl
  · split
    · exact .inl rfl
    · exact .inl rfl
    · split
      · exact .inr rfl
      · exact .inl rfl
    · exact l.countedBlink_lastTime now

theorem LightMutation.lastTime {l l' : Light} (h : LightMutation l l') : l'.lastTime = l.lastTime := by
  cases h <;> rfl

/-- What a table holds after one of its entries was written: the new entry there, and elsewhere what it held. -/
theorem getElem?_set_cases {α : Type} {xs : List α} {k m : Nat} {x y : α} (h : (xs.set k x)[m]? = some y) :
    (m = k ∧ y = x) ∨ xs[m]? = some y := by
  rw [List.getElem?_set] at h
  split at h
  · next hkm =>
    split at h
    · exact .inl ⟨hkm.symm, (Option.some.inj h).symm⟩
    · cases h
  · exact .inr h

/-- Every operation leaves the premise to hold of the operations still to come: it stores no time but its own. -/
theorem exec_timestampPremise {s t : State} {i : Instr} {ops : List Instr} (h : s.timestampPremise (i :: ops))
    (hexec : exec i s = .next t) : t.timestampPremise ops := by
  have kept (hb : t.btn = s.btn) (hl : t.light = s.light) : t.timestampPremise ops :=
    timestampPremise_of_times h (fun n b hn => ⟨b, hb ▸ hn, .inl rfl⟩) fun j l hj => ⟨l, hl ▸ hj, .inl rfl⟩
  cases effect_of_exec hexec with
  | returnOnly | codec | clearSums | addToSums | sendControl => exact kept rfl rfl
  | rawByte => exact kept (by rw [readerByte_frame]) (by rw [readerByte_frame])
  | frameEnd => exact kept (by rw [frameEnd_frame]) (by rw [frameEnd_frame])
  | linkByte => exact kept (by rw [linkByte_frame]) (by rw [linkByte_frame])
  | packet => exact kept (by rw [transportBytes_frame]) (by rw [transportBytes_frame])
  | dispatch => exact kept (by rw [dispatch_frame]) (by rw [dispatch_frame])
  | receive => exact kept (by rw [receive_frame]) (by rw [receive_frame])
  | buttonTick n p now b hb =>
    refine timestampPremise_of_times h (fun m b' hb' => ?_) fun j l hj => ⟨l, hj, .inl rfl⟩
    rcases getElem?_set_cases hb' with ⟨rfl, rfl⟩ | hb'
    · exact ⟨b, hb, (b.tick_lastTransitionTime s.cfg p now).imp_right fun ht => by simp [buttonTime, ht]⟩
    · exact ⟨b', hb', .inl rfl⟩
  | lightUpdate j now l hl =>
    refine timestampPremise_of_times h (fun n b hn => ⟨b, hn, .inl rfl⟩) fun m l' hl' => ?_
    rcases getElem?_set_cases hl' with ⟨rfl, rfl⟩ | hl'
    · exact ⟨l, hl, (l.update_lastTime now).imp_right fun ht => by simp [lightTime, ht]⟩
    · exact ⟨l', hl', .inl rfl⟩
  | lightMutator _ j l l' _ _ hl hm =>
    refine timestampPremise_of_times h (fun n b hn => ⟨b, hn, .inl rfl⟩) fun m l'' hl' => ?_
    rcases getElem?_set_cases hl' with ⟨rfl, rfl⟩ | hl'
    · exact ⟨l, hl, .inl hm.lastTime⟩
    · exact ⟨l'', hl', .inl rfl⟩

/-- Under the premise a tick measures the exact difference from the stored time, which is not negative. -/
theorem elapsed_of_btnTick {s : State} {n : Nat} {p : Bool} {now : BitVec 64} {b : Button} {ops : List Instr}
    (h : s.timestampPremise (.btnTick n p now :: ops)) (hb : s.btn[n]? = some b) :
    elapsed now b.lastTransitionTime = now.toInt - b.lastTransitionTime.toInt ∧
      0 ≤ elapsed now b.lastTransitionTime := by
  have htimes := h.1 n b hb
  rw [buttonTimes_cons, buttonTime, if_pos rfl] at htimes
  exact elapsed_of_premise htimes

/-- And so does an update. -/
theorem elapsed_of_lightUpdate {s : State} {j : Nat} {now : BitVec 64} {l : Light} {ops : List Instr}
    (h : s.timestampPremise (.lightUpdate j now :: ops)) (hl : s.light[j]? = some l) :
    elapsed now l.lastTime = now.toInt - l.lastTime.toInt ∧ 0 ≤ elapsed now l.lastTime := by
  have htimes := h.2 j l hl
  rw [lightTimes_cons, lightTime, if_pos rfl] at htimes
  exact elapsed_of_premise htimes

/-! ### The premise along steps -/

/-- A step that goes on is idle, is the dispatcher's own, or runs the word offered next and takes it off the offers. -/
theorem step_offers_cases {s t : State} (h : step s = .next t) :
    t = s ∨ exec .pktDispatch s = .next t ∨
      ∃ o rest i, s.offers = o :: rest ∧ decode s.cfg o = some i ∧ exec i { s with offers := rest } = .next t := by
  obtain ⟨hok, _⟩ := step_cases h
  rw [step_of_ok hok] at h
  cases hoffers : s.offers with
  | nil =>
    rw [fetch_nil hoffers] at h
    by_cases hready : s.rxPhase = .ready
    · rw [if_pos hready] at h
      exact .inr (.inl h)
    · rw [if_neg hready] at h
      exact .inl (Host.Outcome.next.inj h).symm
  | cons o rest =>
    cases hdec : decode s.cfg o with
    | none =>
      rw [fetch_cons_none hoffers hdec] at h
      cases h
    | some i =>
      rw [fetch_cons hoffers hdec] at h
      by_cases hwaits : waits i s
      · rw [if_pos hwaits] at h
        exact .inr (.inl h)
      · rw [if_neg hwaits] at h
        exact .inr (.inr ⟨o, rest, i, rfl, hdec, h⟩)

/-- What is offered after an operation is what was offered to it. -/
theorem offeredOps_of_exec {i : Instr} {s t : State} (h : exec i s = .next t) : t.offeredOps = s.offeredOps := by
  obtain ⟨hcfg, hoffers⟩ := configurationIsConstant i s t h
  rw [State.offeredOps, State.offeredOps, hcfg, hoffers]

/-- Every step leaves the premise to hold of what is still offered. -/
theorem step_timestampPremise {s t : State} (h : s.timestampPremise s.offeredOps) (hstep : step s = .next t) :
    t.timestampPremise t.offeredOps := by
  rcases step_offers_cases hstep with rfl | hexec | ⟨o, rest, i, hoffers, hdec, hexec⟩
  · exact h
  · rw [offeredOps_of_exec hexec]
    refine exec_timestampPremise (i := .pktDispatch) ?_ hexec
    simpa only [State.timestampPremise, buttonTimes_cons, lightTimes_cons, buttonTime, lightTime, Option.toList_none,
      List.nil_append] using h
  · rw [offeredOps_of_exec hexec]
    refine exec_timestampPremise ?_ hexec
    have hops : s.offeredOps = i :: State.offeredOps { s with offers := rest } := by
      simp only [State.offeredOps, hoffers, List.filterMap_cons, hdec]
    rw [← hops]
    exact h

/-- Settles O52. -/
theorem elapsedIsSignedDifference : Obligations.ElapsedIsSignedDifference := by
  refine ⟨fun now last => ⟨elapsed_of_fits, elapsed_of_over, elapsed_of_under, elapsed_of_premise, fun c st st' e he =>
      ⟨gestureRow_pressed_of_neg c st st' he, gestureRow_released_of_neg c st st' he⟩, ?_⟩,
    fun c ops => resetWith_timestampPremise c, fun s t i ops h hexec => ⟨exec_timestampPremise h hexec, ?_, ?_⟩,
    fun s t => step_timestampPremise⟩
  · rintro s j l hl hc hst rfl hperiod he
    have hp : l.phaseOver now = false := Light.phaseOver_of_le (by omega)
    exact ⟨hp, exec_lightUpdate_of_held hl hc hst hp⟩
  · rintro n p now b rfl hb
    exact elapsed_of_btnTick h hb
  · rintro j now l rfl hl
    exact elapsed_of_lightUpdate h hl

end Sys2Proof.Machine
end

section
/-! What an invocation that breaks a precondition is refused for (rule R98): the guards where they do not let an operation
through, and the operations that stand behind each. -/

namespace Sys2Proof.Machine

open Sys2Proof

/-! ### Guards: what each refuses -/

theorem withBuffer_of_gt {n limit : Nat} (r : Result) (h : limit < n) : withBuffer n limit r = .refused .bufferTooLong :=
  if_pos h

theorem inLinkMode_of_ne {m : LinkMode} {s : State} (r : Result) (h : s.cfg.linkMode ≠ m) :
    inLinkMode m s r = .refused .wrongLinkMode := if_neg h

theorem whileReading_of_ready {s : State} (r : Result) (h : s.rxPhase = .ready) :
    whileReading s r = .refused .notEnabled := if_pos h

theorem whileReady_of_ne {s : State} (r : Result) (h : s.rxPhase ≠ .ready) : whileReady s r = .refused .notEnabled :=
  if_neg h

theorem withButton_of_le {n : Nat} {s : State} (f : Button → Result) (h : s.btn.length ≤ n) :
    withButton n s f = .refused .noSuchButton := by
  simp only [withButton, List.getElem?_eq_none h]

theorem withLight_of_le {j : Nat} {s : State} (f : Light → Result) (h : s.light.length ≤ j) :
    withLight j s f = .refused .noSuchLight := by
  simp only [withLight, List.getElem?_eq_none h]

theorem withPeriod_of_neg {period : BitVec 64} (r : Result) (h : period.toInt < 0) :
    withPeriod period r = .refused .negativePeriod := if_pos h

/-- An encoded form that does not fit is refused as an input that does not (rule R61). -/
theorem exec_enc_of_long {s : State} {input : Bytes} {d : Byte} (h : s.cfg.maxBuf < (enc input d).length) :
    exec (.enc input d) s = .refused .bufferTooLong := by
  by_cases hin : s.cfg.maxBuf < input.length
  · exact withBuffer_of_gt _ hin
  · exact (withBuffer_of_le (Nat.not_lt.mp hin)).trans (withBuffer_of_gt _ h)

/-! ### Which operations stand behind the guards -/

theorem exec_packetRows {s : State} {ty pid ck0 ck1 : Byte} {payload : Bytes} {i : Instr}
    (hi : i ∈ [Instr.pktIdentify pid payload ck0 ck1, .pktStatus pid payload ck0 ck1, .pktCommand pid payload ck0 ck1,
      .pktPing pid payload ck0 ck1, .pktResponse pid payload ck0 ck1, .pktUnknown ty pid payload ck0 ck1]) :
    ∃ ty', exec i s = receivePacket ty' pid payload ck0 ck1 s := by
  simp only [List.mem_cons, List.not_mem_nil, or_false] at hi
  rcases hi with rfl | rfl | rfl | rfl | rfl | rfl
  all_goals exact ⟨_, rfl⟩

theorem exec_dispatcher {s : State} {i : Instr} (hi : i ∈ Instr.pktDispatch :: errorRows) :
    ∃ r, exec i s = whileReady s r := by
  rcases List.mem_cons.mp hi with rfl | hrow
  · exact ⟨_, rfl⟩
  · obtain ⟨_, _, _, hcode⟩ := exec_errorRow hrow s
    exact ⟨_, hcode⟩

theorem exec_channelRows {s : State} {k : Nat} {payload : Bytes} {i : Instr}
    (hi : i ∈ [Instr.chComm k payload, .chControl k payload, .chStatus k payload, .chMisc k payload]) :
    ∃ ch, exec i s = receiveOn ch k payload s := by
  simp only [List.mem_cons, List.not_mem_nil, or_false] at hi
  rcases hi with rfl | rfl | rfl | rfl
  all_goals exact ⟨_, rfl⟩

theorem exec_buttonOps {s : State} {n : Nat} {p : Bool} {now : BitVec 64} {i : Instr}
    (hi : i ∈ [Instr.btnTick n p now, .btnIsClick n, .btnIsSingleClick n, .btnIsDoubleClick n, .btnIsLongClick n,
      .btnIsReleased n, .btnState n]) : ∃ f, exec i s = withButton n s f := by
  simp only [List.mem_cons, List.not_mem_nil, or_false] at hi
  rcases hi with rfl | rfl | rfl | rfl | rfl | rfl | rfl
  all_goals exact ⟨_, rfl⟩

theorem exec_lightOps {s : State} {j : Nat} {now period : BitVec 64} {v : Bool} {n : BitVec 32} {i : Instr}
    (hi : i ∈ [Instr.lightUpdate j now, .lightSet j v, .lightToggle j, .lightBlink j period, .lightBlinkToggle j period,
      .lightBlinkCount j period n, .lightOut j]) : ∃ f, exec i s = withLight j s f := by
  simp only [List.mem_cons, List.not_mem_nil, or_false] at hi
  rcases hi with rfl | rfl | rfl | rfl | rfl | rfl | rfl
  all_goals exact ⟨_, rfl⟩

theorem exec_blinkOps {s : State} {j : Nat} {period : BitVec 64} {n : BitVec 32} {i : Instr}
    (hi : i ∈ [Instr.lightBlink j period, .lightBlinkToggle j period, .lightBlinkCount j period n]) :
    ∃ f : Light → Result, exec i s = withLight j s fun l => withPeriod period (f l) := by
  simp only [List.mem_cons, List.not_mem_nil, or_false] at hi
  rcases hi with rfl | rfl | rfl
  all_goals exact ⟨_, rfl⟩

/-! ### Packets, channels and channel ids -/

/-- A packet row checks the length of its payload before the reader's phase. -/
theorem receivePacket_refused {s : State} (ty pid : Byte) {payload : Bytes} (ck0 ck1 : Byte) :
    (255 < payload.length → receivePacket ty pid payload ck0 ck1 s = .refused .payloadTooLong) ∧
      (payload.length ≤ 255 → s.rxPhase = .ready → receivePacket ty pid payload ck0 ck1 s = .refused .notEnabled) :=
  ⟨fun hlong => if_pos hlong, fun hlen hready => (if_neg (Nat.not_lt.mpr hlen)).trans (whileReading_of_ready _ hready)⟩

/-- A channel row checks its device before the length of its payload. -/
theorem receiveOn_refused {s : State} (ch : Channel) {k : Nat} {payload : Bytes} :
    (s.cfg.numDevices ≤ k → receiveOn ch k payload s = .refused .noSuchDevice) ∧
      (k < s.cfg.numDevices → s.cfg.busMaxPayload < payload.length →
        receiveOn ch k payload s = .refused .busPayloadTooLong) := by
  refine ⟨fun hk => ?_, fun hk hlong => ?_⟩
  · simp only [receiveOn, List.getElem?_eq_none hk]
  · obtain ⟨base, hbase⟩ := exists_base hk
    simp only [receiveOn, hbase]
    exact if_pos hlong

theorem channelAt_of_gt {ch : Nat} (h : 3 < ch) : channelAt ch = none := by
  obtain ⟨m, rfl⟩ := Nat.exists_eq_add_of_lt h
  rw [show 3 + m + 1 = m + 4 by omega]
  rfl

theorem exec_busChanid_of_gt (s : State) (k : Nat) {ch : Nat} (h : 3 < ch) :
    exec (.busChanid k ch) s = .refused .noSuchChannel := by
  change execBusChanid k ch s = _
  simp only [execBusChanid, channelAt_of_gt h]

/-- Settles O16: each invocation meets a guard that refuses it, and no guard before that one does. -/
theorem brokenPreconditionsAreRefused : Obligations.BrokenPreconditionsAreRefused := by
  intro s
  refine ⟨?inputs, fun input d => exec_enc_of_long, fun input => withBuffer_of_gt _, fun pid ty payload hlong => if_pos hlong,
    ?onRaw, ?onStuffed, ?rawHeld, ?stuffedHeld, ?readerHeld, ?packets, ?dispatcher, fun id payload hlong => if_pos hlong,
    ?channels, fun k ch => exec_busChanid_of_gt s k, ?buttons, ?lights, ?periods⟩
  case inputs =>
    exact fun input d hlong =>
      ⟨withBuffer_of_gt _ hlong, withBuffer_of_gt _ hlong, withBuffer_of_gt _ hlong, withBuffer_of_gt _ hlong⟩
  case onRaw =>
    intro hraw
    have hne : s.cfg.linkMode ≠ .stuffed := by rw [hraw]; nofun
    exact ⟨fun b => inLinkMode_of_ne _ hne, inLinkMode_of_ne _ hne⟩
  case onStuffed =>
    intro hstuffed
    have hne : s.cfg.linkMode ≠ .raw := by rw [hstuffed]; nofun
    exact ⟨fun b => inLinkMode_of_ne _ hne, inLinkMode_of_ne _ hne⟩
  case rawHeld =>
    intro hraw hready
    exact ⟨fun b => (inLinkMode_of_eq hraw).trans (whileReading_of_ready _ hready),
      (inLinkMode_of_eq hraw).trans (whileReading_of_ready _ hready)⟩
  case stuffedHeld =>
    intro hstuffed hready
    exact ⟨fun b => (inLinkMode_of_eq hstuffed).trans (whileReading_of_ready _ hready),
      (inLinkMode_of_eq hstuffed).trans (whileReading_of_ready _ hready)⟩
  case readerHeld =>
    intro hready
    exact ⟨whileReading_of_ready _ hready,
      fun pid ty payload hlen => (if_neg (Nat.not_lt.mpr hlen)).trans (whileReading_of_ready _ hready)⟩
  case packets =>
    intro ty pid payload ck0 ck1 i hi
    obtain ⟨ty', hrow⟩ := exec_packetRows (s := s) hi
    rw [hrow]
    exact receivePacket_refused ty' pid ck0 ck1
  case dispatcher =>
    intro hne i hi
    obtain ⟨r, hop⟩ := exec_dispatcher (s := s) hi
    exact hop.trans (whileReady_of_ne r hne)
  case channels =>
    intro k payload i hi
    obtain ⟨ch, hrow⟩ := exec_channelRows (s := s) hi
    rw [hrow]
    exact receiveOn_refused ch
  case buttons =>
    intro n p now hn i hi
    obtain ⟨f, hop⟩ := exec_buttonOps (s := s) hi
    exact hop.trans (withButton_of_le f hn)
  case lights =>
    intro j now v period n hj i hi
    obtain ⟨f, hop⟩ := exec_lightOps (s := s) hi
    exact hop.trans (withLight_of_le f hj)
  case periods =>
    intro j period n hj hneg i hi
    obtain ⟨f, hop⟩ := exec_blinkOps (s := s) hi
    rw [hop, withLight_some (List.getElem?_eq_getElem hj)]
    exact withPeriod_of_neg _ hneg

end Sys2Proof.Machine
end
